-- ==== Sys2Proof/Word.lean ====
section
/-! DEFINITION. The word of this hardware: 32 bits, bit 0 least significant (rules R5, R10, R34). -/

namespace Sys2Proof

/-- A 32-bit value: a System register, a general register, an address, an instruction word (rules R10, R34, R43, R54). -/
abbrev Word := BitVec 32

end Sys2Proof
end

