-- ==== Sys2Proof/Config.lean ====
section
/-! DEFINITION. What rule R4 leaves to the implementation (static parameters) and the free values of the decisions of
spec/92_eei_decisions.md. A static parameter that is plain data is a field of `Config`, which State carries and no step
writes, so that every statement over states holds for every setting. A free value is an opaque constant: nothing can be
proved about which value it is. -/

namespace Sys2Proof

/-- The Exception levels the source names through `PSTATE.EL` (rules R4, R76). -/
inductive EL where
  | el0 | el1 | el2 | el3
deriving DecidableEq, Repr

/-- The context of a data access, whatever `StateMatch` and `LinkMatch` need: Security state, Exception level, context
identifiers (spec/60_exceptions.md section 3). No rule looks inside it: only the two parameters take it. -/
structure Context where
  securityState : Nat
  level         : EL
  identifiers   : List Nat
deriving DecidableEq, Repr

/-- What `StateMatch` or `LinkMatch` answers: a Boolean, or `Reserved` (rules R4, R82, R83). -/
inductive ParamVerdict where
  | yes | no | reserved
deriving DecidableEq, Repr, Inhabited

/-- `RESERVED_MASK_AS` (rules R4, R14): how a watchpoint whose MASK is 0b00001 or 0b00010 behaves. The three constructors
are exactly the admitted set: `Disabled`, `Defined(0)`, and `Defined(m)` for m = 3 .. 31 (`masked k` is m = k + 3). -/
inductive ReservedMaskAs where
  | disabled
  | unmasked
  | masked (k : Fin 29)
deriving DecidableEq, Repr, Inhabited

/-- The static parameters of rule R4 that are plain data. -/
structure Config where
  /-- `WP_IMPL`: which of the sixteen watchpoints are implemented (D17). -/
  wpImpl        : Vector Bool 16
  /-- `HaveEL(EL3)`. -/
  haveEL3       : Bool
  /-- `RES0_IS_STORAGE`: bits [31:29] and [23:21] hold what was written (true) or read as zero (false) (D5). -/
  res0IsStorage : Bool
  /-- `OTHER_WRITERS`: agents other than AArch32 `MCR` may change the storage (D12). -/
  otherWriters  : Bool
deriving DecidableEq, Repr

/-- `draw(32)`: the value of the k-th draw (rules R6, R30; D14). -/
opaque Config.freeWord : Nat → Word

/-- D4: for an unimplemented watchpoint whose access check gives a trap or a halt, whether the k-th access reports
`Undefined` (true) or that trap or halt (false). -/
opaque Config.undefinedFirst : Nat → Bool

/-- D11: which of the values that may still govern matching the k-th evaluation uses, before `Synchronised(n)`. -/
opaque Config.windowPick : Nat → Nat

/-- D6: the choice of `RESERVED_MASK_AS` at the k-th evaluation. -/
opaque Config.reservedMaskAs : Nat → ReservedMaskAs

/-- D15: whether the k-th evaluation, when its verdict does not exclude it, generates the Watchpoint debug event. -/
opaque Config.eventTaken : Nat → Bool

/-- `StateMatch(SSC, HMC, PAC, context)` (rule R82, D7): a total function of its arguments, of which nothing is known. -/
opaque Config.stateMatch : BitVec 2 → BitVec 1 → BitVec 2 → Context → ParamVerdict

/-- `LinkMatch(LBN, context)` (rule R83, D8). -/
opaque Config.linkMatch : BitVec 4 → Context → ParamVerdict

/-- `EXT_OFFSET(n)` (rule R49, D12): the offset of the External register, an open parameter that no rule uses. -/
opaque Config.extOffset : Fin 16 → Nat

end Sys2Proof
end

