-- ==== Sys2Proof/Syntax.lean ====
section
/-! DEFINITION. The instructions of spec/opcode_table.json: its four rows, one constructor each. -/

namespace Sys2Proof

/-- The two instruction sets of the opcode table (rules R54, R55; D22). Which one is in force belongs to the enclosing
processor. -/
inductive InstrSet where
  | a32 | t32
deriving DecidableEq, Repr

/-- The access instructions of `DBGWCR<n>` (rules R50 to R53). The selector `coproc = 0b1110, opc1 = 0b000,
CRn = 0b0000, opc2 = 0b111` is the same in all four and is no operand: another selector is another register (R56).
`cond` is the condition field of the A32 rows, `rt` the general register number t, `crm` the register number n. -/
inductive Instr where
  /-- `MRC{<c>} p14, 0, <Rt>, c0, c<n>, 7`, A32 (R54, R61). -/
  | mrcA32 (cond : BitVec 4) (rt : Fin 16) (crm : Fin 16)
  /-- `MCR{<c>} p14, 0, <Rt>, c0, c<n>, 7`, A32 (R54, R62). -/
  | mcrA32 (cond : BitVec 4) (rt : Fin 16) (crm : Fin 16)
  /-- `MRC p14, 0, <Rt>, c0, c<n>, 7`, T32, no condition field (R55, R61). -/
  | mrcT32 (rt : Fin 16) (crm : Fin 16)
  /-- `MCR p14, 0, <Rt>, c0, c<n>, 7`, T32, no condition field (R55, R62). -/
  | mcrT32 (rt : Fin 16) (crm : Fin 16)
deriving DecidableEq, Repr

/-- The instruction set a constructor belongs to. -/
def Instr.set : Instr → InstrSet
  | .mrcA32 _ _ _ => .a32
  | .mcrA32 _ _ _ => .a32
  | .mrcT32 _ _ => .t32
  | .mcrT32 _ _ => .t32

/-- Whether it reads `DBGWCR<n>` (`MRC`) or writes it (`MCR`). -/
def Instr.isRead : Instr → Bool
  | .mrcA32 _ _ _ => true
  | .mcrA32 _ _ _ => false
  | .mrcT32 _ _ => true
  | .mcrT32 _ _ => false

/-- t = UInt(Rt) (R53). -/
def Instr.rt : Instr → Fin 16
  | .mrcA32 _ rt _ => rt
  | .mcrA32 _ rt _ => rt
  | .mrcT32 rt _ => rt
  | .mcrT32 rt _ => rt

/-- n = UInt(CRm) (R53). -/
def Instr.crm : Instr → Fin 16
  | .mrcA32 _ _ crm => crm
  | .mcrA32 _ _ crm => crm
  | .mrcT32 _ crm => crm
  | .mcrT32 _ crm => crm

end Sys2Proof
end

