-- ==== Sys2Proof/WellFormed.lean ====
section
/-! DEFINITION. Which instructions are well formed: the checks of rules R54 and R57 on the operands. -/

namespace Sys2Proof

/-- `cond` must not be 0b1111 (R54). -/
def condAdmitted (cond : BitVec 4) : Bool := cond != 0b1111#4

/-- t = 0..14 admitted, t = 15 refused (R57, D1). -/
def rtAdmitted (rt : Fin 16) : Bool := rt.val != 15

/-- Every CRm value names a register (R53, R56), so only `cond` and `Rt` are checked. -/
def Instr.wellFormed : Instr → Bool
  | .mrcA32 cond rt _ => condAdmitted cond && rtAdmitted rt
  | .mcrA32 cond rt _ => condAdmitted cond && rtAdmitted rt
  | .mrcT32 rt _ => rtAdmitted rt
  | .mcrT32 rt _ => rtAdmitted rt

end Sys2Proof
end

