-- ==== Sys2Proof/Decode.lean ====
section
/-! DEFINITION. From instruction words to instructions and back. The selector's field VALUES are the source's (R52, R53);
their bit POSITIONS are R54 and R55, which the spec supplies from general knowledge (PRESUMED, log entry 2). -/

namespace Sys2Proof

/-- Why a word is not an access to `DBGWCR<n>`. Such words "select other registers or nothing" (R56) and are outside this
hardware. -/
inductive DecodeError where
  /-- Bits [27:24] or bit [4] are not those of an MRC or MCR (in T32: bits [31:24] or bit [4]). -/
  | notRegisterTransfer
  /-- A32, `cond = 0b1111` (R54). -/
  | unconditional
  /-- `coproc != 0b1110`. -/
  | otherCoprocessor
  /-- `opc1 != 0b000`. -/
  | otherOpc1
  /-- `CRn != 0b0000`. -/
  | otherCRn
  /-- `opc2 != 0b111`. -/
  | otherOpc2
deriving DecidableEq, Repr

/-- What decoding answers. -/
inductive Decoded where
  | instr  (i : Instr)
  | reject (e : DecodeError)
deriving DecidableEq, Repr

/-- The fields of the layouts of R54 and R55. In T32 the four bits of `cond` are the fixed 1110 that begins the first
halfword. -/
structure Fields where
  cond   : BitVec 4
  prefix4 : BitVec 4
  opc1   : BitVec 3
  read   : Bool
  crn    : BitVec 4
  rt     : BitVec 4
  coproc : BitVec 4
  opc2   : BitVec 3
  bit4   : Bool
  crm    : BitVec 4
deriving DecidableEq, Repr

/-- The layout `cond 1110 opc1 L CRn Rt coproc opc2 1 CRm` (R54); the T32 one is the same with the first halfword high
(R55). -/
def fieldsOf (w : Word) : Fields where
  cond   := w.extractLsb' 28 4
  prefix4 := w.extractLsb' 24 4
  opc1   := w.extractLsb' 21 3
  read   := w.getLsbD 20
  crn    := w.extractLsb' 16 4
  rt     := w.extractLsb' 12 4
  coproc := w.extractLsb' 8 4
  opc2   := w.extractLsb' 5 3
  bit4   := w.getLsbD 4
  crm    := w.extractLsb' 0 4

/-- The four bits of a register number as the number, `UInt` (R53). -/
def regNumber (b : BitVec 4) : Fin 16 := b.toFin

/-- A register number as four bits. -/
def regBits (r : Fin 16) : BitVec 4 := BitVec.ofNat 4 r.val

/-- Which field of the selector of R52 differs, if one does. -/
def selectorError (f : Fields) : Option DecodeError :=
  if f.coproc != 0b1110#4 then some .otherCoprocessor
  else if f.opc1 != 0b000#3 then some .otherOpc1
  else if f.crn != 0b0000#4 then some .otherCRn
  else if f.opc2 != 0b111#3 then some .otherOpc2
  else none

/-- The A32 reading of a word (R54). -/
def decodeA32 (w : Word) : Decoded :=
  let f := fieldsOf w
  if f.prefix4 != 0b1110#4 || !f.bit4 then .reject .notRegisterTransfer
  else if f.cond == 0b1111#4 then .reject .unconditional
  else match selectorError f with
    | some e => .reject e
    | none =>
      if f.read then .instr (.mrcA32 f.cond (regNumber f.rt) (regNumber f.crm))
      else .instr (.mcrA32 f.cond (regNumber f.rt) (regNumber f.crm))

/-- The T32 reading of a word, first halfword high (R55). -/
def decodeT32 (w : Word) : Decoded :=
  let f := fieldsOf w
  if f.cond != 0b1110#4 || f.prefix4 != 0b1110#4 || !f.bit4 then .reject .notRegisterTransfer
  else match selectorError f with
    | some e => .reject e
    | none =>
      if f.read then .instr (.mrcT32 (regNumber f.rt) (regNumber f.crm))
      else .instr (.mcrT32 (regNumber f.rt) (regNumber f.crm))

/-- Decoding, total on every word of either instruction set. -/
def decode (set : InstrSet) (w : Word) : Decoded :=
  match set with
  | .a32 => decodeA32 w
  | .t32 => decodeT32 w

/-- A word from the fields of R54: the source's selector values (R52) between the free fields. -/
def layout (cond : BitVec 4) (read : BitVec 1) (rt crm : Fin 16) : Word :=
  cond ++ 0b1110#4 ++ 0b000#3 ++ read ++ 0b0000#4 ++ regBits rt ++ 0b1110#4 ++ 0b111#3 ++ 1#1 ++ regBits crm

/-- The word of an instruction (R54; R55 with `cond` replaced by the fixed 1110). -/
def encode : Instr → Word
  | .mrcA32 cond rt crm => layout cond 1#1 rt crm
  | .mcrA32 cond rt crm => layout cond 0#1 rt crm
  | .mrcT32 rt crm => layout 0b1110#4 1#1 rt crm
  | .mcrT32 rt crm => layout 0b1110#4 0#1 rt crm

/-- The word that the first `nbits` bits of `w` give, every bit above them zero. -/
def tableWord (nbits w : Nat) : Word := BitVec.ofNat 32 (w % 2 ^ nbits)

/-- The instruction set a table word is read in. A word alone does not say it: the table's A32 and T32 rows of one
mnemonic share the words whose top four bits are 1110. Those are read as the T32 rows, whose fixed bits they are, and all
others as A32 (DESIGN CHOICE, log entry 6: it concerns only how a row's word is placed, not the machine). -/
def tableSet (w : Word) : InstrSet :=
  if w.extractLsb' 28 4 == 0b1110#4 then .t32 else .a32

/-- The instruction the decoder reads from a row's word. -/
def decodeTableWord (nbits w : Nat) : Option Instr :=
  let word := tableWord nbits w
  match decode (tableSet word) word with
  | .instr i => some i
  | .reject _ => none

end Sys2Proof
end

