-- ==== Sys2Proof/Machine/State.lean ====
section
/-! DEFINITION. The state of the machine, its faults and refusals, and the state after a Cold reset. State is plain data:
the sixteen registers of this hardware (rule R10), the state of the enclosing processor that the rules read (R33, R34), the
static parameters (R4), and what the environment does next (R90, R91, R47, R48, R85). -/

namespace Sys2Proof.Machine

/-- `kind` of a data access (spec/60_exceptions.md section 3, D25). -/
inductive AccessKind where
  | load | store
deriving DecidableEq, Repr

/-- A data access as the enclosing processor describes it: kind, the non-empty set of byte addresses it touches (`first`
and `more`; order and repetition mean nothing), and its context (spec/60_exceptions.md section 3, D21). -/
structure Access where
  kind    : AccessKind
  first   : Word
  more    : List Word
  context : Context
deriving DecidableEq, Repr

/-- Why a match evaluation has no meaning in the spec (R79, R80, R82, R83; D7 to D10, D18). -/
inductive MatchRefusal where
  /-- D18: `DBGWVR<n>[1:0] != 0b00`. -/
  | wvrLowBits
  /-- D10: BAS is not one of the 36 valid values. -/
  | reservedBAS
  /-- D9: a mask with BAS != 0xFF, or with a masked bit of `DBGWVR<n>` set. -/
  | maskWithBAS
  /-- D7: `StateMatch` answers `Reserved`. -/
  | reservedSSCHMCPAC
  /-- D8: `LinkMatch` answers `Reserved`. -/
  | reservedLink
deriving DecidableEq, Repr

/-- What `Match(n, access)` answers (R78): false, true, or `Refused`, with every reason that applies. -/
inductive MatchVerdict where
  | noMatch
  | matched
  | refused (reasons : List MatchRefusal)
deriving DecidableEq, Repr

/-- What the enclosing processor receives for an access (R85): the verdict of each watchpoint, and the watchpoints n for
which the abstract event `WatchpointEvent(n)` is generated. -/
structure MatchReport where
  access   : Access
  verdicts : Vector MatchVerdict 16
  events   : List (Fin 16)
deriving DecidableEq, Repr

/-- What a register holds: UNKNOWN, as a Cold reset leaves it, each use of it being a draw of its own (R30, D14); or the
32 bits last written. -/
inductive Contents where
  | unknown
  | held (v : Word)
deriving DecidableEq, Repr

/-- `DBGWCR<n>`: its contents, and `stale`, the earlier contents that may still govern matching because no synchronisation
point has come since they were overwritten (R47, D11), the oldest first. `Synchronised(n)` is `stale = []`. -/
structure Wcr where
  contents : Contents
  stale    : List Contents
deriving DecidableEq, Repr

/-- The inputs of the access check (R4, R33), and the enclosing processor's verdict on the condition of the instruction it
executes (R36, D3). Nothing is assumed of how they relate (D24). -/
structure Inputs where
  /-- `PSTATE.EL` -/
  el              : EL
  /-- `EL2Enabled()` -/
  el2Enabled      : Bool
  /-- `ELUsingAArch32(EL1)` -/
  el1A32          : Bool
  /-- `ELUsingAArch32(EL2)` -/
  el2A32          : Bool
  /-- `ELUsingAArch32(EL3)` -/
  el3A32          : Bool
  /-- `MDCR_EL2.TDE` -/
  mdcrEl2Tde      : Bool
  /-- `MDCR_EL2.TDA` -/
  mdcrEl2Tda      : Bool
  /-- `HDCR.TDE` -/
  hdcrTde         : Bool
  /-- `HDCR.TDA` -/
  hdcrTda         : Bool
  /-- `MDCR_EL3.TDA` -/
  mdcrEl3Tda      : Bool
  /-- `DBGOSLSR.OSLK` -/
  oslk            : Bool
  /-- `HaltingAllowed()` -/
  haltingAllowed  : Bool
  /-- `EDSCR.TDA` -/
  edscrTda        : Bool
  /-- whether the condition of the instruction at hand, its `<c>` or its IT block's, holds -/
  conditionPassed : Bool
deriving DecidableEq, Repr

/-- The names of the one 32-bit storage (R40). -/
inductive AccessPath where
  /-- the AArch32 System register `DBGWCR<n>`: `MRC`, `MCR` -/
  | aarch32
  /-- the AArch64 System register `DBGWCR<n>_EL1`, bits [31:0] -/
  | aarch64
  /-- the External register `DBGWCR<n>_EL1`, bits [31:0] -/
  | external
deriving DecidableEq, Repr

/-- The two paths that are not this hardware's own instructions (R48). -/
inductive OtherPath where
  | aarch64 | external
deriving DecidableEq, Repr

/-- What can happen next. `execute` is the executing agent running its next instruction; every other event is a step of
the environment. -/
inductive Event where
  /-- the executing agent runs the instruction at its program counter -/
  | execute
  /-- R90 -/
  | coldReset
  /-- R91 -/
  | warmReset
  /-- R48: an agent of the AArch64 or External path writes `v`, any 32 bits, to `DBGWCR<n>` -/
  | otherWrite (path : OtherPath) (n : Fin 16) (v : Word)
  /-- R47: the enclosing processor's synchronisation point for `DBGWCR<n>` -/
  | synchronise (n : Fin 16)
  /-- R78, R85: a data access of the enclosing processor, to be matched against every watchpoint -/
  | dataAccess (a : Access)
  /-- R33: the inputs of the access check take other values -/
  | setInputs (i : Inputs)
  /-- R33: `DBGWVR<n>` takes another value -/
  | setWvr (n : Fin 16) (w : Word)
  /-- R34: the enclosing processor's own instructions write general register t -/
  | setX (t : Fin 15) (v : Word)
  /-- R35: the enclosing processor continues elsewhere, or in the other instruction set -/
  | setPc (pc : Word) (set : InstrSet)
deriving DecidableEq, Repr

/-- The program text of the enclosing processor (D19): instruction words by address, addresses strictly rising. It is the
only memory of the model: this hardware reads and writes none (R42). Words, not bytes: byte order is the enclosing
processor's (R44, D13). -/
abbrev Memory := List (Nat × Word)

/-- The machine. -/
structure State where
  /-- the static parameters (R4); no step writes them -/
  cfg      : Config
  /-- `DBGWCR<0>` to `DBGWCR<15>` (R10) -/
  wcr      : Vector Wcr 16
  /-- `DBGWVR<0>` to `DBGWVR<15>` (R33) -/
  wvr      : Vector Word 16
  /-- general registers 0 to 14 (R34, D1) -/
  x        : Vector Word 15
  /-- the inputs of the access check (R33) -/
  inp      : Inputs
  /-- where the enclosing processor's next instruction stands (R35, D2) -/
  pc       : Word
  /-- the instruction set it is read in (D22) -/
  iset     : InstrSet
  /-- the program text (D19) -/
  text     : Memory
  /-- what happens next, the first first; when it is empty the executing agent runs its next instruction -/
  schedule : List Event
  /-- what the last data access gave (R85); none before the first -/
  report   : Option MatchReport
  /-- how many free values have been used (the model's own) -/
  draws    : Nat
deriving DecidableEq, Repr

/-- The five non-completing outcomes of an access (R7, R70 to R74; D16). Each ends the step, with no state of this hardware
changed; what the enclosing processor does then is in no source. All are SAFE: the model stops where hardware goes on. -/
inductive Fault where
  /-- Raised by the access check at EL0 and by the gate for an unimplemented watchpoint (R70). Safe. -/
  | undefined
  /-- `AArch64.AArch32SystemAccessTrap(EL2, ec)`, raised by the access check at EL1 (R71). Safe. -/
  | sysTrapEL2 (ec : BitVec 8)
  /-- `AArch32.TakeHypTrapException(ec)`, raised by the access check at EL1 (R72). Safe. -/
  | hypTrap (ec : BitVec 8)
  /-- `AArch64.AArch32SystemAccessTrap(EL3, ec)`, raised by the access check at EL1 and EL2 (R73). Safe. -/
  | sysTrapEL3 (ec : BitVec 8)
  /-- `Halt(DebugHalt_SoftwareAccess)`, raised by the access check at EL1, EL2 and EL3 (R74). Safe. -/
  | haltSoftwareAccess
deriving DecidableEq, Repr

/-- Where the spec gives no meaning (R7). All are SAFE. -/
inductive Refusal where
  /-- An instruction of the opcode table that has no meaning yet. Raised by an arm of `exec`. Safe. -/
  | notModelled (mnemonic : String)
  /-- `Rt` = 15 (R57, D1). Raised by every instruction's operand check. Safe. -/
  | rtIsPC
  /-- `<c>` is 0b1111, which is no condition (R54); the decoder never gives such an instruction. Raised by the A32
  instructions' operand check. Safe. -/
  | conditionReserved
  /-- The condition of the instruction fails (R36, D3). Raised by every instruction's operand check. Safe. -/
  | conditionFailed
  /-- The word at the program counter is no access to `DBGWCR<n>` (R56). Raised by the fetch. Safe. -/
  | otherInstruction (e : DecodeError)
  /-- The program text holds nothing at the program counter. Raised by the fetch. Safe. -/
  | noProgramText
  /-- A write of the AArch64 or External path where `OTHER_WRITERS` is false: no such step exists (R48). Raised by the
  environment. Safe. -/
  | otherWritersExcluded
  /-- A write of the AArch64 or External path to a watchpoint that is not implemented: its storage is no state (R10, R48).
  Raised by the environment. Safe. -/
  | otherWriteUnimplemented
deriving DecidableEq, Repr

/-- The static parameters `State.reset` names. The spec gives none (DESIGN CHOICE, log entry 3): a statement about programs
takes them from the state it speaks of. -/
def paramsAtReset : Config where
  wpImpl        := Vector.replicate 16 true
  haveEL3       := true
  res0IsStorage := false
  otherWriters  := true

/-- The inputs `State.reset` names. The spec gives none (R90): the highest Exception level, every level using AArch32, no
trap or halt control set, the OS Lock set (PRESUMED, log entry 4). -/
def inputsAtReset : Inputs where
  el              := .el3
  el2Enabled      := false
  el1A32          := true
  el2A32          := true
  el3A32          := true
  mdcrEl2Tde      := false
  mdcrEl2Tda      := false
  hdcrTde         := false
  hdcrTda         := false
  mdcrEl3Tda      := false
  oslk            := true
  haltingAllowed  := false
  edscrTda        := false
  conditionPassed := true

/-- The machine right after a Cold reset: every register of this hardware UNKNOWN (R30). The state of the enclosing
processor is in no source (R90); log entries 3 to 5 name the values taken for it. -/
def State.reset : State where
  cfg      := paramsAtReset
  wcr      := Vector.replicate 16 ⟨.unknown, []⟩
  wvr      := Vector.replicate 16 0
  x        := Vector.replicate 15 0
  inp      := inputsAtReset
  pc       := 0
  iset     := .a32
  text     := []
  schedule := []
  report   := none
  draws    := 0

end Sys2Proof.Machine
end

