-- ==== Sys2Proof/Machine/Fields.lean ====
section
/-! DEFINITION. The fields of `DBGWCR<n>` (rule R11), the RES0 policy (R12, R16, R64), and the functions of single fields:
the address mask (R13, R15), BAS validity (R23), the access type (R24, R81). -/

namespace Sys2Proof.Machine

/-- The mask of the RW fields (R11). -/
def rwMask : Word := 0x1F1FFFFF#32

/-- The mask of the RES0 bits (R11). -/
def res0Mask : Word := 0xE0E00000#32

/-- Bits [31:29], RES0 (R12). -/
def r31Of (c : Word) : BitVec 3 := c.extractLsb' 29 3
/-- MASK, bits [28:24] (R13). -/
def maskOf (c : Word) : BitVec 5 := c.extractLsb' 24 5
/-- Bits [23:21], RES0 (R16). -/
def r23Of (c : Word) : BitVec 3 := c.extractLsb' 21 3
/-- WT, bit [20] (R17). -/
def wtOf (c : Word) : BitVec 1 := c.extractLsb' 20 1
/-- LBN, bits [19:16] (R18). -/
def lbnOf (c : Word) : BitVec 4 := c.extractLsb' 16 4
/-- SSC, bits [15:14] (R19). -/
def sscOf (c : Word) : BitVec 2 := c.extractLsb' 14 2
/-- HMC, bit [13] (R20). -/
def hmcOf (c : Word) : BitVec 1 := c.extractLsb' 13 1
/-- BAS, bits [12:5] (R21). -/
def basOf (c : Word) : BitVec 8 := c.extractLsb' 5 8
/-- LSC, bits [4:3] (R24). -/
def lscOf (c : Word) : BitVec 2 := c.extractLsb' 3 2
/-- PAC, bits [2:1] (R26). -/
def pacOf (c : Word) : BitVec 2 := c.extractLsb' 1 2
/-- E, bit [0] (R27). -/
def eOf (c : Word) : BitVec 1 := c.extractLsb' 0 1

/-- Packing: `r31:MASK:r23:WT:LBN:SSC:HMC:BAS:LSC:PAC:E` (R11). -/
def pack (r31 : BitVec 3) (mask : BitVec 5) (r23 : BitVec 3) (wt : BitVec 1) (lbn : BitVec 4) (ssc : BitVec 2)
    (hmc : BitVec 1) (bas : BitVec 8) (lsc pac : BitVec 2) (e : BitVec 1) : Word :=
  r31 ++ mask ++ r23 ++ wt ++ lbn ++ ssc ++ hmc ++ bas ++ lsc ++ pac ++ e

/-- `StoreValue(v)`: the RW fields take the bits of `v` with no filter; the RES0 bits do so only where they are storage,
and are 0 where not (R12, R16, R64). -/
def storeValue (cfg : Config) (v : Word) : Word :=
  if cfg.res0IsStorage then v else v &&& rwMask

/-- `AddrMask(m)` for a defined `m` (R15): 2^m - 1 on 32 bits. -/
def addrMask (m : Nat) : Word := BitVec.ofNat 32 (2 ^ m - 1)

/-- How many address bits the MASK field leaves out of the comparison, by its value and by the choice made for the reserved
ones: none of them means the watchpoint is disabled (R13, R14). -/
def effectiveMask (choice : ReservedMaskAs) (mask : BitVec 5) : Option Nat :=
  if mask.toNat = 1 ∨ mask.toNat = 2 then
    match choice with
    | .disabled => none
    | .unmasked => some 0
    | .masked k => some (k.val + 3)
  else some mask.toNat

/-- Whether BAS is one of the 36 valid values, "non-zero binary numbers all of whose set bits are contiguous": adding the
lowest set bit carries out of the whole run (R23; the test of spec/95_test_vectors.md 2.6, on 9 bits). -/
def basValid (bas : BitVec 8) : Bool :=
  let v : BitVec 9 := bas.zeroExtend 9
  let lsb := v &&& (0 - v)
  v != 0 && (v + lsb) &&& v == 0

/-- `TypeMatch(LSC, kind)` (R81). -/
def typeMatch (lsc : BitVec 2) (kind : AccessKind) : Bool :=
  match kind with
  | .load => lsc.getLsbD 0
  | .store => lsc.getLsbD 1

end Sys2Proof.Machine
end

