-- ==== Sys2Proof/Machine/Ops.lean ====
section
/-! DEFINITION. The operations on the state that the meanings share: general registers, the storage of `DBGWCR<n>` through
its three names, free values, the program text, and `raise`, by which an access ends with a non-completing outcome. -/

namespace Sys2Proof.Machine

/-- Sixteen entries, the n-th being `f n`. -/
def tabulate {α : Type} (f : Fin 16 → α) : Vector α 16 :=
  ⟨#[f 0, f 1, f 2, f 3, f 4, f 5, f 6, f 7, f 8, f 9, f 10, f 11, f 12, f 13, f 14, f 15], rfl⟩

/-- `x[t]` (R6, R34). -/
def State.readX (s : State) (t : Fin 15) : Word := s.x.get t

/-- `x[t] <- v` (R6, R34). -/
def State.writeX (s : State) (t : Fin 15) (v : Word) : State :=
  { s with x := s.x.set t.val v t.isLt }

/-- `WP_IMPL(n)` (R4). -/
def State.implemented (s : State) (n : Fin 16) : Bool := s.cfg.wpImpl.get n

/-- `DBGWCR<n>` with all the state that belongs to it. -/
def State.wcrAt (s : State) (n : Fin 16) : Wcr := s.wcr.get n

/-- `DBGWCR<n>` replaced. -/
def State.setWcr (s : State) (n : Fin 16) (r : Wcr) : State :=
  { s with wcr := s.wcr.set n.val r n.isLt }

/-- `WVR[n]` (R33). -/
def State.wvrAt (s : State) (n : Fin 16) : Word := s.wvr.get n

/-- `k` free values have been used. -/
def State.usedDraws (s : State) (k : Nat) : State := { s with draws := s.draws + k }

/-- The 32 bits a use of a register sees: what it holds, or the draw `free` while it is UNKNOWN (R30, R65); the RES0 bits
read as 0 where they are not storage (R12, R32). -/
def contentsValue (cfg : Config) (free : Word) (c : Contents) : Word :=
  match c with
  | .unknown => storeValue cfg free
  | .held v => storeValue cfg v

/-- A read of `DBGWCR<n>` by any of its names: one storage, one view (R40, R65, R66), and reading changes nothing (R42).
While the register is UNKNOWN each read of a run uses a draw of its own (D14); reads tried in one and the same state use
the same one, by whatever path and of whatever register (DESIGN CHOICE, log entry 7). -/
def State.readPath (_ : AccessPath) (s : State) (n : Fin 16) : Word × State :=
  match (s.wcrAt n).contents with
  | .unknown => (contentsValue s.cfg (Config.freeWord s.draws) .unknown, s.usedDraws 1)
  | .held v => (contentsValue s.cfg 0 (.held v), s)

/-- A write of `DBGWCR<n>` by any of its names: all 32 bits at once (R41), by `StoreValue` (R64), to one storage (R40);
the overwritten contents may govern matching until the next synchronisation point (R47). -/
def State.writePath (_ : AccessPath) (s : State) (n : Fin 16) (v : Word) : State :=
  let r := s.wcrAt n
  s.setWcr n ⟨.held (storeValue s.cfg v), r.stale ++ [r.contents]⟩

/-- The path of rule R40 that another writer uses. -/
def OtherPath.toPath : OtherPath → AccessPath
  | .aarch64 => .aarch64
  | .external => .external

/-- `Synchronised(n)` (R47): nothing but the stored value governs matching. -/
def Wcr.synchronised (r : Wcr) : Bool := r.stale.isEmpty

/-- The contents that may govern the next match evaluation (R47, D11): the stored one, and those overwritten since the last
synchronisation point. -/
def Wcr.candidates (r : Wcr) : List Contents := r.contents :: r.stale

/-- One of the contents that may govern matching, chosen by `pick`. -/
def Wcr.governing (r : Wcr) (pick : Nat) : Contents :=
  r.candidates.getD (pick % r.candidates.length) r.contents

/-- `raise o` (R6): the step ends with the outcome and changes no state of this hardware. It is the one operation by which
a non-completing outcome is reported; where control then goes, and how it returns, is in no source (R87, D16). -/
def raise (o : Fault) : Host.Outcome State Fault Refusal := .fault o

/-- The word at an address of the program text. -/
def Memory.read : Memory → Nat → Option Word
  | [], _ => none
  | (a, w) :: rest, i => if i = a then some w else Memory.read rest i

/-- The program text with `w` at address `i`, addresses kept strictly rising. -/
def Memory.write : Memory → Nat → Word → Memory
  | [], i, w => [(i, w)]
  | (a, v) :: rest, i, w =>
    if i < a then (i, w) :: (a, v) :: rest
    else if i = a then (i, w) :: rest
    else (a, v) :: Memory.write rest i w

/-- Every address of the text is above `lo`, and they rise strictly. -/
def Memory.above (lo : Nat) : Memory → Bool
  | [] => true
  | (a, _) :: rest => decide (lo < a) && Memory.above a rest

/-- The canonical form of the program text: addresses strictly rising. -/
def Memory.wf : Memory → Bool
  | [] => true
  | (a, _) :: rest => Memory.above a rest

end Sys2Proof.Machine
end

