-- ==== Sys2Proof/Machine/AccessCheck.lean ====
section
/-! DEFINITION. The access check that both instructions run first (rule R60), and the gate that adds the condition on
unimplemented watchpoints (R63). -/

namespace Sys2Proof.Machine

/-- The result of the access check: `Proceed`, or an outcome to raise (R60). -/
inductive Check where
  | proceed
  | raises (o : Fault)
deriving DecidableEq, Repr

/-- The argument of the trap calls, carried uninterpreted (R9, R71). -/
def trapCode : BitVec 8 := 0x05#8

/-- `TrapEL2_64` (R60): `EL2Enabled() && !ELUsingAArch32(EL2) && MDCR_EL2.<TDE,TDA> != '00'`. -/
def trapEL2A64 (i : Inputs) : Bool := i.el2Enabled && !i.el2A32 && (i.mdcrEl2Tde || i.mdcrEl2Tda)

/-- `TrapEL2_32` (R60): `EL2Enabled() && ELUsingAArch32(EL2) && HDCR.<TDE,TDA> != '00'`. -/
def trapEL2A32 (i : Inputs) : Bool := i.el2Enabled && i.el2A32 && (i.hdcrTde || i.hdcrTda)

/-- `TrapEL3_64` (R60): `HaveEL(EL3) && !ELUsingAArch32(EL3) && MDCR_EL3.TDA == '1'`. -/
def trapEL3A64 (haveEL3 : Bool) (i : Inputs) : Bool := haveEL3 && !i.el3A32 && i.mdcrEl3Tda

/-- `HaltCond` (R60): `ELUsingAArch32(EL1) && DBGOSLSR.OSLK == '0' && HaltingAllowed() && EDSCR.TDA == '1'`. -/
def haltCond (i : Inputs) : Bool := i.el1A32 && !i.oslk && i.haltingAllowed && i.edscrTda

/-- The tests of EL3, the last of every level's chain (R60). -/
def checkHalt (i : Inputs) : Check :=
  if haltCond i then .raises .haltSoftwareAccess else .proceed

/-- The tests of EL2 (R60). -/
def checkEL3Trap (haveEL3 : Bool) (i : Inputs) : Check :=
  if trapEL3A64 haveEL3 i then .raises (.sysTrapEL3 trapCode) else checkHalt i

/-- The tests of EL1 (R60). -/
def checkEL2Trap (haveEL3 : Bool) (i : Inputs) : Check :=
  if trapEL2A64 i then .raises (.sysTrapEL2 trapCode)
  else if trapEL2A32 i then .raises (.hypTrap trapCode)
  else checkEL3Trap haveEL3 i

/-- `AccessCheck` (R60): the first test that holds decides (R75). -/
def accessCheck (haveEL3 : Bool) (i : Inputs) : Check :=
  match i.el with
  | .el0 => .raises .undefined
  | .el1 => checkEL2Trap haveEL3 i
  | .el2 => checkEL3Trap haveEL3 i
  | .el3 => checkHalt i

/-- `Gate(n)` as the set of its members (R63, D4). -/
def gateMembers (impl : Bool) (o : Check) : List Check :=
  if impl then [o]
  else match o with
    | .proceed => [.raises .undefined]
    | .raises .undefined => [.raises .undefined]
    | .raises f => [.raises .undefined, .raises f]

/-- The member of `Gate(n)` that an access takes: `undefinedFirst` says which of two (R63, D4). -/
def gateChoice (undefinedFirst impl : Bool) (o : Check) : Check :=
  if impl then o
  else match o with
    | .proceed => .raises .undefined
    | .raises f => if undefinedFirst then .raises .undefined else .raises f

/-- The gate of an access to register n in a state (R61, R62: "any member of Gate(n)"). DESIGN CHOICE (log entry 10): the
member is picked by the count of free values alone, so any two accesses to unimplemented watchpoints tried in one and the
same state are given the same pick, a read and a write among them. -/
def State.gate (s : State) (n : Fin 16) : Check :=
  gateChoice (Config.undefinedFirst s.draws) (s.implemented n) (accessCheck s.cfg.haveEL3 s.inp)

/-- Runs `k` when the gate lets the access proceed, and raises the gate's outcome otherwise (R61, R62). -/
def throughGate (s : State) (n : Fin 16)
    (k : Host.Outcome State Fault Refusal) : Host.Outcome State Fault Refusal :=
  match s.gate n with
  | .proceed => k
  | .raises o => raise o

end Sys2Proof.Machine
end

