-- ==== Sys2Proof/Machine/Flags.lean ====
section
/-! DEFINITION. Conditions. Neither instruction reads or writes a flag (rule R36); the flags and what each condition means
belong to the enclosing processor, whose verdict is the input `conditionPassed` (D3). -/

namespace Sys2Proof.Machine

/-- Where an instruction's condition comes from: the `cond` field (A32, R54), or an enclosing IT block (T32, R55). -/
inductive Condition where
  | field (cond : BitVec 4)
  | itBlock
deriving DecidableEq, Repr

/-- What can be said of a condition. -/
inductive ConditionVerdict where
  | holds | fails | reserved
deriving DecidableEq, Repr

/-- `cond` = 0b1110 is "always", 0b1111 is no condition (R54); of any other, and of an IT block's, the enclosing processor
says whether it holds (R36). DESIGN CHOICE (log entry 17): it says so by one Boolean for all of them, which stays until the
inputs change, so that executions under different conditions (EQ and NE) in one state, or in steps with no change of the
inputs between, all pass or all fail; how the verdicts on different conditions relate is open (R58, N13). -/
def conditionVerdict (c : Condition) (i : Inputs) : ConditionVerdict :=
  match c with
  | .field cond =>
    if cond = 0b1111#4 then .reserved
    else if cond = 0b1110#4 then .holds
    else if i.conditionPassed then .holds else .fails
  | .itBlock => if i.conditionPassed then .holds else .fails

end Sys2Proof.Machine
end

