-- ==== Sys2Proof/Machine/Operands.lean ====
section
/-! DEFINITION. The operands of the access instructions: `Rt`, and when an execution is admitted at all (rules R36, R53,
R57). `CRm` needs no function: n = UInt(CRm) is the constructor's own field (R53). -/

namespace Sys2Proof.Machine

/-- The general register an instruction names, t = 0..14 (R34, R57, D1). -/
def generalRegister (rt : Fin 16) : Option (Fin 15) :=
  if h : rt.val < 15 then some ⟨rt.val, h⟩ else none

/-- Runs `k` on the general register of an admitted execution: `Rt` is a general register and the condition holds; refuses
by name otherwise (R36, R57). -/
def whenAdmitted (c : Condition) (rt : Fin 16) (s : State)
    (k : Fin 15 → Host.Outcome State Fault Refusal) : Host.Outcome State Fault Refusal :=
  match generalRegister rt with
  | none => .refused .rtIsPC
  | some t =>
    match conditionVerdict c s.inp with
    | .reserved => .refused .conditionReserved
    | .fails => .refused .conditionFailed
    | .holds => k t

end Sys2Proof.Machine
end

