-- ==== Sys2Proof/Machine/SystemRegister.lean ====
section
/-! DEFINITION. The meanings of the access instructions (rules R61, R62): one each, over the two shared accesses. None
writes a flag or the program counter (R35, R36); the A32 and T32 forms have one meaning (D22). -/

namespace Sys2Proof.Machine

/-- The read of R61: `x[t] <- ReadValue(n)`. -/
def readAccess (c : Condition) (rt n : Fin 16) (s : State) : Host.Outcome State Fault Refusal :=
  whenAdmitted c rt s fun t =>
    throughGate s n (.next ((s.readPath .aarch32 n).2.writeX t (s.readPath .aarch32 n).1))

/-- The write of R62: `DBGWCR[n] <- StoreValue(x[t])`. -/
def writeAccess (c : Condition) (rt n : Fin 16) (s : State) : Host.Outcome State Fault Refusal :=
  whenAdmitted c rt s fun t =>
    throughGate s n (.next (s.writePath .aarch32 n (s.readX t)))

/-- `MRC`, A32 (R54, R61). -/
def execMrcA32 (cond : BitVec 4) (rt crm : Fin 16) (s : State) : Host.Outcome State Fault Refusal :=
  readAccess (.field cond) rt crm s

/-- `MCR`, A32 (R54, R62). -/
def execMcrA32 (cond : BitVec 4) (rt crm : Fin 16) (s : State) : Host.Outcome State Fault Refusal :=
  writeAccess (.field cond) rt crm s

/-- `MRC`, T32 (R55, R61). -/
def execMrcT32 (rt crm : Fin 16) (s : State) : Host.Outcome State Fault Refusal :=
  readAccess .itBlock rt crm s

/-- `MCR`, T32 (R55, R62). -/
def execMcrT32 (rt crm : Fin 16) (s : State) : Host.Outcome State Fault Refusal :=
  writeAccess .itBlock rt crm s

end Sys2Proof.Machine
end

