-- ==== Sys2Proof/Machine/Dispatch.lean ====
section
/-! DEFINITION. The meaning of every instruction of the opcode table: one arm each. -/

namespace Sys2Proof.Machine

/-- What an instruction does. -/
def exec (i : Instr) (s : State) : Host.Outcome State Fault Refusal :=
  match i with
  | .mrcA32 cond rt crm => Sys2Proof.Machine.execMrcA32 cond rt crm s
  | .mcrA32 cond rt crm => Sys2Proof.Machine.execMcrA32 cond rt crm s
  | .mrcT32 rt crm => Sys2Proof.Machine.execMrcT32 rt crm s
  | .mcrT32 rt crm => Sys2Proof.Machine.execMcrT32 rt crm s

end Sys2Proof.Machine
end

