-- ==== Sys2Proof/Machine/Match.lean ====
section
/-! DEFINITION. Watchpoint matching (rules R78 to R84): what the fields mean for a data access of the enclosing processor. -/

namespace Sys2Proof.Machine

/-- The parameters a match evaluation takes (R4, R82, R83, R14). They are an argument, not state. -/
structure MatchParams where
  stateMatch   : BitVec 2 → BitVec 1 → BitVec 2 → Context → ParamVerdict
  linkMatch    : BitVec 4 → Context → ParamVerdict
  reservedMask : ReservedMaskAs

/-- The byte addresses an access touches. -/
def Access.bytes (a : Access) : List Word := a.first :: a.more

/-- `K` of R79: all eight bytes of the double-word when `W[2] == 0`, the four of the word when it is 1 (R21, R22). -/
def watchedOffsets (w : Word) : List Nat :=
  if w.getLsbD 2 then [0, 1, 2, 3] else [0, 1, 2, 3, 4, 5, 6, 7]

/-- Whether byte address `a` is in `Watched` (R79): `a = W + k` for a `k` in `K` with `BAS[k] == 1`. -/
def watches (bas : BitVec 8) (w a : Word) : Bool :=
  (watchedOffsets w).any fun k => bas.getLsbD k && a == w + BitVec.ofNat 32 k

/-- Whether byte address `a` is in the masked block of `W` (R80): `a[31:m] == W[31:m]`. -/
def inBlock (m : Nat) (w a : Word) : Bool := a &&& ~~~ addrMask m == w &&& ~~~ addrMask m

/-- `AddrMatch` where it is a Boolean: with no mask some byte touched is watched (R79), with a mask some byte touched lies
in the block (R80). -/
def addrMatch (m : Nat) (bas : BitVec 8) (w : Word) (bytes : List Word) : Bool :=
  bytes.any fun a => if m = 0 then watches bas w a else inBlock m w a

/-- Why `AddrMatch` is `Refused`, if it is: D18, D10, D9 (R79, R80). -/
def addrRefusals (m : Nat) (bas : BitVec 8) (w : Word) : List MatchRefusal :=
  (if w.extractLsb' 0 2 = 0#2 then [] else [.wvrLowBits]) ++
  (if basValid bas then [] else [.reservedBAS]) ++
  (if m = 0 ∨ (bas = 0xFF#8 ∧ w &&& addrMask m = 0) then [] else [.maskWithBAS])

/-- `S` of R78: `StateMatch` on the three fields together (R82). -/
def stateVerdict (p : MatchParams) (c : Word) (ctx : Context) : ParamVerdict :=
  p.stateMatch (sscOf c) (hmcOf c) (pacOf c) ctx

/-- `L` of R78: true when WT = 0, `LinkMatch` on LBN when WT = 1 (R83). -/
def linkVerdict (p : MatchParams) (c : Word) (ctx : Context) : ParamVerdict :=
  if wtOf c = 0#1 then .yes else p.linkMatch (lbnOf c) ctx

/-- Why `S` or `L` is `Refused`, if one is. -/
def paramRefusals (p : MatchParams) (c : Word) (ctx : Context) : List MatchRefusal :=
  (if stateVerdict p c ctx = .reserved then [.reservedSSCHMCPAC] else []) ++
  (if linkVerdict p c ctx = .reserved then [.reservedLink] else [])

/-- The last line of R78, for a watchpoint that is enabled and whose type matches: `Refused` if any of A, S, L is, else
their conjunction. -/
def conjunction (p : MatchParams) (m : Nat) (c w : Word) (a : Access) : MatchVerdict :=
  let reasons := addrRefusals m (basOf c) w ++ paramRefusals p c a.context
  if reasons.isEmpty then
    if addrMatch m (basOf c) w a.bytes && stateVerdict p c a.context == .yes && linkVerdict p c a.context == .yes then
      .matched
    else .noMatch
  else .refused reasons

/-- `Match(n, access)` for an implemented watchpoint whose control value is `c` and whose value register holds `w` (R78),
its tests in the order of R78 and R84. -/
def matchVerdict (p : MatchParams) (c w : Word) (a : Access) : MatchVerdict :=
  if eOf c = 0#1 then .noMatch
  else if lscOf c = 0b00#2 then .noMatch
  else if typeMatch (lscOf c) a.kind then
    match effectiveMask p.reservedMask (maskOf c) with
    | none => .noMatch
    | some m => conjunction p m c w a
  else .noMatch

/-- The parameters the k-th evaluation takes (D6 to D8). DESIGN CHOICE (log entry 12): the choice for a reserved MASK depends
on the number k of the evaluation alone, so that at one k both reserved values, and every access, get the same. -/
def evaluationParams (k : Nat) : MatchParams where
  stateMatch   := Config.stateMatch
  linkMatch    := Config.linkMatch
  reservedMask := Config.reservedMaskAs k

/-- The evaluation of watchpoint n on an access in a state, the k-th of all: on the contents that govern matching (R47),
drawn anew if UNKNOWN (R30); false for an unimplemented watchpoint (R78). -/
def State.evaluate (s : State) (a : Access) (k : Nat) (n : Fin 16) : MatchVerdict :=
  if s.implemented n then
    matchVerdict (evaluationParams k)
      (contentsValue s.cfg (Config.freeWord k) ((s.wcrAt n).governing (Config.windowPick k))) (s.wvrAt n) a
  else .noMatch

/-- The evaluation of watchpoint n on the next access: the sixteen evaluations of one access use sixteen draws. DESIGN CHOICE
(log entries 7, 11, 12, 15): the number of the evaluation is the count of free values plus n, so that different accesses
tried on watchpoint n in one and the same state share the free values, the pick of the window of R47 among them. -/
def State.verdictOn (s : State) (a : Access) (n : Fin 16) : MatchVerdict := s.evaluate a (s.draws + n.val) n

/-- The watchpoints whose event the access generates (R85, D15): none whose verdict is false, and of the others those that
a free value takes. -/
def State.eventsOn (s : State) (a : Access) : List (Fin 16) :=
  (List.finRange 16).filter fun n => s.verdictOn a n != .noMatch && Config.eventTaken (s.draws + n.val)

/-- What the enclosing processor receives for an access (R85): every watchpoint is evaluated independently of the others. -/
def State.reportOn (s : State) (a : Access) : MatchReport where
  access   := a
  verdicts := tabulate (s.verdictOn a)
  events   := s.eventsOn a

end Sys2Proof.Machine
end

