-- ==== Sys2Proof/Machine/Environment.lean ====
section
/-! DEFINITION. The steps of the environment: resets (rules R90, R91), writers on the other paths (R48), synchronisation
points (R47), data accesses (R78, R85), and changes of the enclosing processor's own state (R33 to R35). -/

namespace Sys2Proof.Machine

/-- Cold reset (R30, R90): every implemented register UNKNOWN, nothing of the previous value surviving. The state of the
executing agent after it belongs to the enclosing processor and is left as it is (R90). -/
def State.coldReset (s : State) : State :=
  { s with wcr := tabulate fun n => if s.implemented n then ⟨.unknown, []⟩ else s.wcrAt n }

/-- Warm reset (R31, R91): every register as it was, UNKNOWN ones included. That the values waiting to be matched and the
enclosing processor's state stay as they are is a DESIGN CHOICE (log entries 11, 27). -/
def State.warmReset (s : State) : State := s

/-- A write by the AArch64 or External path (R40, R48, D12). -/
def otherWrite (path : OtherPath) (n : Fin 16) (v : Word) (s : State) : Host.Outcome State Fault Refusal :=
  if s.cfg.otherWriters then
    if s.implemented n then .next (s.writePath path.toPath n v)
    else .refused .otherWriteUnimplemented
  else .refused .otherWritersExcluded

/-- The synchronisation point of register n (R47): from here the stored value alone governs matching. -/
def State.synchronise (s : State) (n : Fin 16) : State :=
  s.setWcr n ⟨(s.wcrAt n).contents, []⟩

/-- A data access (R78, R85). -/
def State.present (s : State) (a : Access) : State :=
  { s with report := some (s.reportOn a), draws := s.draws + 16 }

/-- `DBGWVR<n>` takes another value (R33). -/
def State.setWvr (s : State) (n : Fin 16) (w : Word) : State :=
  { s with wvr := s.wvr.set n.val w n.isLt }

/-- The inputs take other values (R4, R33). -/
def State.withInputs (s : State) (i : Inputs) : State := { s with inp := i }

/-- The enclosing processor continues elsewhere (R35). -/
def State.withPc (s : State) (pc : Word) (set : InstrSet) : State := { s with pc := pc, iset := set }

end Sys2Proof.Machine
end

