-- ==== Sys2Proof/Machine/Fetch.lean ====
section
/-! DEFINITION. How the enclosing processor comes to an instruction and goes on after it (R35, D2, D19, D22). -/

namespace Sys2Proof.Machine

/-- The instruction word at the program counter. DESIGN CHOICE (log entry 26): no alignment of the program counter is asked
for, in either instruction set, since the spec gives no rule for instruction fetch (R45). -/
def State.fetch (s : State) : Option Word := Memory.read s.text s.pc.toNat

/-- Both layouts are four bytes long: one A32 word, two T32 halfwords (R54, R55). -/
def instrBytes : Word := 4#32

/-- The next instruction in program order (R35). -/
def State.advance (s : State) : State := { s with pc := s.pc + instrBytes }

/-- The schedule replaced. -/
def State.withSchedule (s : State) (es : List Event) : State := { s with schedule := es }

/-- An instruction word placed where the next instruction is fetched, to be read in instruction set `set`, with nothing
scheduled before it. -/
def State.placeWord (s : State) (set : InstrSet) (w : Word) : State :=
  { s with text := Memory.write s.text s.pc.toNat w, iset := set, schedule := [] }

/-- What the enclosing processor does with an instruction's outcome: `Ok` continues in program order, any other ends the
step (R7, R35). -/
def continueAfter (o : Host.Outcome State Fault Refusal) : Host.Outcome State Fault Refusal :=
  match o with
  | .next t => .next t.advance
  | .fault f => .fault f
  | .refused r => .refused r

end Sys2Proof.Machine
end

