-- ==== Sys2Proof/Machine/Step.lean ====
section
/-! DEFINITION. One step: the next scheduled event, or, with nothing scheduled, the instruction at the program counter. -/

namespace Sys2Proof.Machine

/-- The executing agent fetches, decodes and executes one instruction. -/
def runInstruction (s : State) : Host.Outcome State Fault Refusal :=
  match s.fetch with
  | none => .refused .noProgramText
  | some w =>
    match decode s.iset w with
    | .reject e => .refused (.otherInstruction e)
    | .instr i => continueAfter (exec i s)

/-- One event. -/
def runEvent (e : Event) (s : State) : Host.Outcome State Fault Refusal :=
  match e with
  | .execute => runInstruction s
  | .coldReset => .next s.coldReset
  | .warmReset => .next s.warmReset
  | .otherWrite path n v => otherWrite path n v s
  | .synchronise n => .next (s.synchronise n)
  | .dataAccess a => .next (s.present a)
  | .setInputs i => .next (s.withInputs i)
  | .setWvr n w => .next (s.setWvr n w)
  | .setX t v => .next (s.writeX t v)
  | .setPc pc set => .next (s.withPc pc set)

/-- One step of the machine. -/
def step (s : State) : Host.Outcome State Fault Refusal :=
  match s.schedule with
  | [] => runInstruction s
  | e :: rest => runEvent e (s.withSchedule rest)

/-- The state with an opcode-table word placed where the next instruction is fetched, in the instruction set its row is of,
with nothing scheduled before it (log entries 5 and 6). -/
def State.withFetchWord (s : State) (nbits w : Nat) : State :=
  s.placeWord (tableSet (tableWord nbits w)) (tableWord nbits w)

end Sys2Proof.Machine
end

