-- ==== Sys2Proof/Safety.lean ====
section
/-! DEFINITION. What counts as a safe run and as a well-behaved program, in the terms of spec/70_reset_and_hazards.md. -/

namespace Sys2Proof.Safety

open Sys2Proof.Machine

/-- `WellFormedWCR(v)` (rule R93): the source's "must not" duties on software as a check on written values. -/
def wellFormedWcr (v : Word) : Bool :=
  eOf v == 0#1 || ((maskOf v).toNat != 1 && (maskOf v).toNat != 2 && basValid (basOf v) && lscOf v != 0b00#2)

/-- Register n has been written since the last Cold reset. -/
def written (s : State) (n : Fin 16) : Bool :=
  match (s.wcrAt n).contents with
  | .unknown => false
  | .held _ => true

/-- The launch premise of R92: every implemented `DBGWCR<n>` has been written since the last Cold reset. -/
def allWritten (s : State) : Bool :=
  (List.finRange 16).all fun n => !s.implemented n || written s n

/-- The boot duty of R92 for watchpoint n, done and in force: E = 0 is stored, and no other value governs matching. -/
def quiet (s : State) (n : Fin 16) : Bool :=
  match s.wcrAt n with
  | ⟨.held v, []⟩ => eOf v == 0#1
  | _ => false

/-- The next `k` steps all complete: none ends in a non-completing outcome or a refusal. -/
def completes (k : Nat) (s : State) : Bool :=
  match Sys2Proof.core.run k s with
  | .next _ => true
  | .fault _ => false
  | .refused _ => false

/-- No match verdict of the last access is one the spec gives no meaning to. -/
def lastAccessDefined (s : State) : Bool :=
  match s.report with
  | none => true
  | some r => (List.finRange 16).all fun n =>
    match r.verdicts.get n with
    | .refused _ => false
    | .noMatch => true
    | .matched => true

end Sys2Proof.Safety
end

