-- ==== Sys2Proof/Certificates/Slice0/Obligations.lean ====
section
/-! DEFINITION. The statements for the provers, each a rule of spec/ or what follows from some. The vocabulary before them
is written from the spec's own tables (R60, R75, R76), not from the model's functions. -/

namespace Sys2Proof.Claims

open Sys2Proof.Machine

/-- The execution is admitted: t = 0..14 (R57, D1), and its condition holds: `cond` is "always" or the enclosing
processor says that it holds (R36, R54, D3). -/
abbrev Admitted (i : Instr) (s : State) : Prop :=
  i.rt.val < 15 ∧
    match i with
    | .mrcA32 cond _ _ => cond ≠ 0b1111#4 ∧ (cond = 0b1110#4 ∨ s.inp.conditionPassed = true)
    | .mcrA32 cond _ _ => cond ≠ 0b1111#4 ∧ (cond = 0b1110#4 ∨ s.inp.conditionPassed = true)
    | .mrcT32 _ _ => s.inp.conditionPassed = true
    | .mcrT32 _ _ => s.inp.conditionPassed = true

/-- "EL2 is enabled, EL2 uses AArch64, and at least one of MDCR_EL2.TDE, MDCR_EL2.TDA is 1" (R71). -/
abbrev EL2Trap64 (i : Inputs) : Prop :=
  i.el2Enabled = true ∧ i.el2A32 = false ∧ (i.mdcrEl2Tde = true ∨ i.mdcrEl2Tda = true)

/-- "EL2 is enabled, EL2 uses AArch32, and at least one of HDCR.TDE, HDCR.TDA is 1" (R72). -/
abbrev EL2Trap32 (i : Inputs) : Prop :=
  i.el2Enabled = true ∧ i.el2A32 = true ∧ (i.hdcrTde = true ∨ i.hdcrTda = true)

/-- "EL3 is implemented, EL3 uses AArch64, and MDCR_EL3.TDA is 1" (R73). -/
abbrev EL3Trap (s : State) : Prop :=
  s.cfg.haveEL3 = true ∧ s.inp.el3A32 = false ∧ s.inp.mdcrEl3Tda = true

/-- The condition of the halt (R74). -/
abbrev SoftwareAccessHalt (i : Inputs) : Prop :=
  i.el1A32 = true ∧ i.oslk = false ∧ i.haltingAllowed = true ∧ i.edscrTda = true

/-- The conditions under which an access at EL1, EL2 or EL3 is permitted (R76). -/
abbrev Permitted (s : State) : Prop :=
  (s.inp.el = .el1 ∧ ¬ EL2Trap64 s.inp ∧ ¬ EL2Trap32 s.inp ∧ ¬ EL3Trap s ∧ ¬ SoftwareAccessHalt s.inp) ∨
  (s.inp.el = .el2 ∧ ¬ EL3Trap s ∧ ¬ SoftwareAccessHalt s.inp) ∨
  (s.inp.el = .el3 ∧ ¬ SoftwareAccessHalt s.inp)

/-- The value a write of `v` leaves (R64): all of `v` where the RES0 bits are storage, `v & 0x1F1FFFFF` where not. -/
def Stored (cfg : Config) (v : Word) : Word :=
  if cfg.res0IsStorage = true then v else v &&& 0x1F1FFFFF#32

/-- The instruction that the next step executes, if it executes one. -/
def Current (s : State) : Option Instr :=
  let running := match s.schedule with
    | [] => true
    | .execute :: _ => true
    | _ => false
  if running then
    match s.fetch with
    | none => none
    | some w =>
      match decode s.iset w with
      | .instr i => some i
      | .reject _ => none
  else none

/-- The next step is one of those that the spec lets write `DBGWCR<n>`: an `MCR` of it (R62), a write by the AArch64
or External path (R48), a Cold reset (R90). -/
def Writes (s : State) (n : Fin 16) : Prop :=
  (∃ i, Current s = some i ∧ i.isRead = false ∧ i.crm = n) ∨
  (∃ path v, s.schedule.head? = some (.otherWrite path n v)) ∨
  s.schedule.head? = some .coldReset

/-- The invariant: where the RES0 bits are no storage, nothing that can be read or can govern matching has one set
(R12, R64); the storage of an unimplemented watchpoint is never written (R10); the program text is in canonical form;
and no event was generated by a watchpoint whose verdict is false (R85). -/
def Inv (s : State) : Prop :=
  (∀ n v, s.cfg.res0IsStorage = false → Contents.held v ∈ (s.wcrAt n).candidates → v &&& 0xE0E00000#32 = 0) ∧
  (∀ n, s.implemented n = false → s.wcrAt n = ⟨.unknown, []⟩) ∧
  Memory.wf s.text = true ∧
  (∀ r, s.report = some r → ∀ n, n ∈ r.events → r.verdicts.get n ≠ .noMatch)

/-- `c` with `m` in its MASK field (R11, R13). -/
def withMask (c : Word) (m : BitVec 5) : Word :=
  pack (r31Of c) m (r23Of c) (wtOf c) (lbnOf c) (sscOf c) (hmcOf c) (basOf c) (lscOf c) (pacOf c) (eOf c)

/-- The watchpoint is enabled and its access type is the access's: the tests of R78 before the address match. -/
abbrev Armed (c : Word) (a : Access) : Prop :=
  eOf c = 1#1 ∧ ((lscOf c = 0b01#2 ∧ a.kind = .load) ∨ (lscOf c = 0b10#2 ∧ a.kind = .store) ∨ lscOf c = 0b11#2)

/-- Neither parameter stands in the way: the state condition holds, and the link condition where there is one (R82,
R83). -/
abbrev ParamsHold (p : MatchParams) (c : Word) (ctx : Context) : Prop :=
  p.stateMatch (sscOf c) (hmcOf c) (pacOf c) ctx = .yes ∧ (wtOf c = 0#1 ∨ p.linkMatch (lbnOf c) ctx = .yes)

end Sys2Proof.Claims

open Sys2Proof Sys2Proof.Machine Sys2Proof.Claims

/-! ### Encoding -/

/-- The instruction words of spec/95_test_vectors.md 2.5, and its near misses. The bit layout is the spec's from
general knowledge (log entry 2). -/
def Obligations.SampleWordsDecode : Prop :=
  decode .a32 0xEE100EF0#32 = .instr (.mrcA32 0b1110#4 0 0) ∧
  decode .a32 0xEE10CEFF#32 = .instr (.mrcA32 0b1110#4 12 15) ∧
  decode .a32 0xEE005EF2#32 = .instr (.mcrA32 0b1110#4 5 2) ∧
  decode .a32 0x0E100EF0#32 = .instr (.mrcA32 0b0000#4 0 0) ∧
  decode .a32 0x1E000EF0#32 = .instr (.mcrA32 0b0001#4 0 0) ∧
  decode .t32 0xEE10EEF7#32 = .instr (.mrcT32 14 7) ∧
  decode .t32 0xEE003EFF#32 = .instr (.mcrT32 3 15) ∧
  decode .a32 0xFE100EF0#32 = .reject .unconditional ∧
  decode .a32 0xEE100ED0#32 = .reject .otherOpc2 ∧
  decode .a32 0xEE110EF0#32 = .reject .otherCRn ∧
  decode .a32 0xEE300EF0#32 = .reject .otherOpc1 ∧
  decode .a32 0xEE100FF0#32 = .reject .otherCoprocessor ∧
  decode .a32 0xEE100EE0#32 = .reject .notRegisterTransfer

/-- Decoding gives back every encoded instruction, every operand at every value its field can hold, t = 15 too (which
is decoded and then refused). The bit layout is the spec's from general knowledge (log entry 2). -/
def Obligations.DecodeInvertsEncode : Prop :=
  (∀ (cond : BitVec 4) (rt crm : Fin 16), cond ≠ 0b1111#4 →
    decode .a32 (encode (.mrcA32 cond rt crm)) = .instr (.mrcA32 cond rt crm) ∧
    decode .a32 (encode (.mcrA32 cond rt crm)) = .instr (.mcrA32 cond rt crm)) ∧
  (∀ rt crm : Fin 16,
    decode .t32 (encode (.mrcT32 rt crm)) = .instr (.mrcT32 rt crm) ∧
    decode .t32 (encode (.mcrT32 rt crm)) = .instr (.mcrT32 rt crm))

/-- Every word that decodes is the encoding of the instruction it decodes to: no word has a second reading, and no bit
of an accepted word is ignored. The bit layout is the spec's from general knowledge (log entry 2). -/
def Obligations.EncodeInvertsDecode : Prop :=
  ∀ (set : InstrSet) (w : Word) (i : Instr), decode set w = .instr i → i.set = set ∧ encode i = w

/-- The decoder accepts exactly the words of the opcode table's match and mask, and reads `cond`, `Rt` and `CRm` from
bits 31:28, 15:12 and 3:0. The bit layout is the spec's from general knowledge (log entry 2). -/
def Obligations.DecodeAcceptsExactlyTheTable : Prop :=
  ∀ (w : Word) (cond : BitVec 4) (rt crm : Fin 16),
    (decode .a32 w = .instr (.mrcA32 cond rt crm) ↔
      w &&& 0x0FFF0FF0#32 = 0x0E100EF0#32 ∧ cond ≠ 0b1111#4 ∧
      w.toNat / 2 ^ 28 = cond.toNat ∧ w.toNat / 2 ^ 12 % 16 = rt.val ∧ w.toNat % 16 = crm.val) ∧
    (decode .a32 w = .instr (.mcrA32 cond rt crm) ↔
      w &&& 0x0FFF0FF0#32 = 0x0E000EF0#32 ∧ cond ≠ 0b1111#4 ∧
      w.toNat / 2 ^ 28 = cond.toNat ∧ w.toNat / 2 ^ 12 % 16 = rt.val ∧ w.toNat % 16 = crm.val) ∧
    (decode .t32 w = .instr (.mrcT32 rt crm) ↔
      w &&& 0xFFFF0FF0#32 = 0xEE100EF0#32 ∧ w.toNat / 2 ^ 12 % 16 = rt.val ∧ w.toNat % 16 = crm.val) ∧
    (decode .t32 w = .instr (.mcrT32 rt crm) ↔
      w &&& 0xFFFF0FF0#32 = 0xEE000EF0#32 ∧ w.toNat / 2 ^ 12 % 16 = rt.val ∧ w.toNat % 16 = crm.val)

/-! ### The register's fields -/

/-- R11: packing is the sum of the fields at their places, each field is read back, packing a word's fields gives the
word, and the two masks are the RW fields and the rest. -/
def Obligations.FieldsTileTheRegister : Prop :=
  (∀ (r31 : BitVec 3) (mask : BitVec 5) (r23 : BitVec 3) (wt : BitVec 1) (lbn : BitVec 4) (ssc : BitVec 2)
      (hmc : BitVec 1) (bas : BitVec 8) (lsc pac : BitVec 2) (e : BitVec 1),
    let c := pack r31 mask r23 wt lbn ssc hmc bas lsc pac e
    c.toNat = r31.toNat * 2 ^ 29 + mask.toNat * 2 ^ 24 + r23.toNat * 2 ^ 21 + wt.toNat * 2 ^ 20 + lbn.toNat * 2 ^ 16 +
      ssc.toNat * 2 ^ 14 + hmc.toNat * 2 ^ 13 + bas.toNat * 2 ^ 5 + lsc.toNat * 2 ^ 3 + pac.toNat * 2 + e.toNat ∧
    r31Of c = r31 ∧ maskOf c = mask ∧ r23Of c = r23 ∧ wtOf c = wt ∧ lbnOf c = lbn ∧ sscOf c = ssc ∧ hmcOf c = hmc ∧
    basOf c = bas ∧ lscOf c = lsc ∧ pacOf c = pac ∧ eOf c = e) ∧
  (∀ c : Word, withMask c (maskOf c) = c) ∧
  rwMask = 0x1F1FFFFF#32 ∧ res0Mask = 0xE0E00000#32 ∧ rwMask = pack 0 31 0 1 15 3 1 255 3 3 1 ∧ res0Mask = ~~~ rwMask

/-- R15: `AddrMask(m)` is 0 for m = 0 and 2^m - 1 for 3 <= m <= 31; those m are taken as they stand, and for m = 1 and
2 the choice of R14 is taken. -/
def Obligations.AddressMaskValues : Prop :=
  addrMask 0 = 0x00000000#32 ∧ addrMask 3 = 0x00000007#32 ∧ addrMask 31 = 0x7FFFFFFF#32 ∧
  (∀ m, 3 ≤ m → m ≤ 31 → (addrMask m).toNat = 2 ^ m - 1) ∧
  (∀ (choice : ReservedMaskAs) (m : BitVec 5), m ≠ 1#5 → m ≠ 2#5 → effectiveMask choice m = some m.toNat) ∧
  (∀ m : BitVec 5, m = 1#5 ∨ m = 2#5 →
    effectiveMask .disabled m = none ∧ effectiveMask .unmasked m = some 0 ∧
    ∀ k : Fin 29, effectiveMask (.masked k) m = some (k.val + 3))

/-- R23: the valid values of BAS are the numbers `((1 << L) - 1) << s`, L = 1..8, s = 0..8-L: thirty-six of them. -/
def Obligations.ByteSelectValidity : Prop :=
  (∀ bas : BitVec 8, basValid bas = true ↔
    ∃ L s : Nat, 1 ≤ L ∧ L + s ≤ 8 ∧ bas.toNat = (2 ^ L - 1) * 2 ^ s) ∧
  ((List.range 256).filter fun k => basValid (BitVec.ofNat 8 k)).length = 36

/-! ### The access check and the gate -/

/-- R70(a): every admitted access at EL0 is `Undefined`, of an implemented watchpoint or not, whatever else holds. -/
def Obligations.AccessAtEL0IsUndefined : Prop :=
  ∀ (i : Instr) (s : State), Admitted i s → s.inp.el = .el0 → exec i s = .fault .undefined

/-- R75: the outcome of an admitted access to an implemented watchpoint is the first of its level's column whose
condition holds. -/
def Obligations.OutcomePriority : Prop :=
  ∀ (i : Instr) (s : State), Admitted i s → s.implemented i.crm = true →
    (s.inp.el = .el0 → exec i s = .fault .undefined) ∧
    (s.inp.el = .el1 →
      (EL2Trap64 s.inp → exec i s = .fault (.sysTrapEL2 0x05#8)) ∧
      (¬ EL2Trap64 s.inp → EL2Trap32 s.inp → exec i s = .fault (.hypTrap 0x05#8)) ∧
      (¬ EL2Trap64 s.inp → ¬ EL2Trap32 s.inp → EL3Trap s → exec i s = .fault (.sysTrapEL3 0x05#8)) ∧
      (¬ EL2Trap64 s.inp → ¬ EL2Trap32 s.inp → ¬ EL3Trap s → SoftwareAccessHalt s.inp →
        exec i s = .fault .haltSoftwareAccess) ∧
      (¬ EL2Trap64 s.inp → ¬ EL2Trap32 s.inp → ¬ EL3Trap s → ¬ SoftwareAccessHalt s.inp → ∃ u, exec i s = .next u)) ∧
    (s.inp.el = .el2 →
      (EL3Trap s → exec i s = .fault (.sysTrapEL3 0x05#8)) ∧
      (¬ EL3Trap s → SoftwareAccessHalt s.inp → exec i s = .fault .haltSoftwareAccess) ∧
      (¬ EL3Trap s → ¬ SoftwareAccessHalt s.inp → ∃ u, exec i s = .next u)) ∧
    (s.inp.el = .el3 →
      (SoftwareAccessHalt s.inp → exec i s = .fault .haltSoftwareAccess) ∧
      (¬ SoftwareAccessHalt s.inp → ∃ u, exec i s = .next u))

/-- R71: `SysTrapEL2` is raised only at EL1 under its condition and with the code 0x05, and is raised then. -/
def Obligations.SysTrapEL2RaisedExactly : Prop :=
  ∀ (i : Instr) (s : State),
    (∀ ec, exec i s = .fault (.sysTrapEL2 ec) → s.inp.el = .el1 ∧ EL2Trap64 s.inp ∧ ec = 0x05#8) ∧
    (Admitted i s → s.implemented i.crm = true → s.inp.el = .el1 → EL2Trap64 s.inp →
      exec i s = .fault (.sysTrapEL2 0x05#8))

/-- R72: `HypTrap`, likewise; the test of R71 failed. -/
def Obligations.HypTrapRaisedExactly : Prop :=
  ∀ (i : Instr) (s : State),
    (∀ ec, exec i s = .fault (.hypTrap ec) →
      s.inp.el = .el1 ∧ ¬ EL2Trap64 s.inp ∧ EL2Trap32 s.inp ∧ ec = 0x05#8) ∧
    (Admitted i s → s.implemented i.crm = true → s.inp.el = .el1 → EL2Trap32 s.inp →
      exec i s = .fault (.hypTrap 0x05#8))

/-- R73: `SysTrapEL3`, at EL1 when the tests of R71 and R72 failed and at EL2 as the first test; never at EL0 or
EL3. -/
def Obligations.SysTrapEL3RaisedExactly : Prop :=
  ∀ (i : Instr) (s : State),
    (∀ ec, exec i s = .fault (.sysTrapEL3 ec) → EL3Trap s ∧ ec = 0x05#8 ∧
      ((s.inp.el = .el1 ∧ ¬ EL2Trap64 s.inp ∧ ¬ EL2Trap32 s.inp) ∨ s.inp.el = .el2)) ∧
    (Admitted i s → s.implemented i.crm = true → EL3Trap s →
      ((s.inp.el = .el1 ∧ ¬ EL2Trap64 s.inp ∧ ¬ EL2Trap32 s.inp) ∨ s.inp.el = .el2) →
      exec i s = .fault (.sysTrapEL3 0x05#8))

/-- R74: `Halt(SoftwareAccess)`, at EL1, EL2 or EL3 when every trap test of that level failed and its condition
holds. -/
def Obligations.SoftwareAccessHaltRaisedExactly : Prop :=
  ∀ (i : Instr) (s : State),
    (exec i s = .fault .haltSoftwareAccess → SoftwareAccessHalt s.inp ∧
      ((s.inp.el = .el1 ∧ ¬ EL2Trap64 s.inp ∧ ¬ EL2Trap32 s.inp ∧ ¬ EL3Trap s) ∨
       (s.inp.el = .el2 ∧ ¬ EL3Trap s) ∨ s.inp.el = .el3)) ∧
    (Admitted i s → s.implemented i.crm = true → SoftwareAccessHalt s.inp →
      ((s.inp.el = .el1 ∧ ¬ EL2Trap64 s.inp ∧ ¬ EL2Trap32 s.inp ∧ ¬ EL3Trap s) ∨
       (s.inp.el = .el2 ∧ ¬ EL3Trap s) ∨ s.inp.el = .el3) →
      exec i s = .fault .haltSoftwareAccess)

/-- R63: an access to an unimplemented watchpoint never completes. It is `Undefined` at EL0 and where the check would
let it proceed; where the check gives a trap or a halt it is that or `Undefined` (which of the two is the spec's
decision D4: both are admitted; log entry 10). -/
def Obligations.UnimplementedWatchpointGate : Prop :=
  ∀ (i : Instr) (s : State), Admitted i s → s.implemented i.crm = false →
    (s.inp.el = .el0 ∨ Permitted s → exec i s = .fault .undefined) ∧
    (s.inp.el = .el1 → EL2Trap64 s.inp →
      exec i s = .fault .undefined ∨ exec i s = .fault (.sysTrapEL2 0x05#8)) ∧
    (s.inp.el = .el1 → EL2Trap32 s.inp →
      exec i s = .fault .undefined ∨ exec i s = .fault (.hypTrap 0x05#8)) ∧
    (EL3Trap s → ((s.inp.el = .el1 ∧ ¬ EL2Trap64 s.inp ∧ ¬ EL2Trap32 s.inp) ∨ s.inp.el = .el2) →
      exec i s = .fault .undefined ∨ exec i s = .fault (.sysTrapEL3 0x05#8)) ∧
    (SoftwareAccessHalt s.inp →
      ((s.inp.el = .el1 ∧ ¬ EL2Trap64 s.inp ∧ ¬ EL2Trap32 s.inp ∧ ¬ EL3Trap s) ∨
       (s.inp.el = .el2 ∧ ¬ EL3Trap s) ∨ s.inp.el = .el3) →
      exec i s = .fault .undefined ∨ exec i s = .fault .haltSoftwareAccess) ∧
    (∀ u, exec i s ≠ .next u)

/-- R76: read and write of one register have the same rights: they complete together, and end in the same outcome
otherwise. For an unimplemented watchpoint under a trap or a halt the sameness is the model's own: R61 to R63 let each
access take any member of the gate (the spec's decision D4), and the model's free choice depends on the count of free
values alone (log entry 10). -/
def Obligations.ReadAndWriteHaveTheSameRights : Prop :=
  ∀ (i j : Instr) (s : State), Admitted i s → Admitted j s → i.crm = j.crm →
    ((∃ u, exec i s = .next u) ↔ ∃ u, exec j s = .next u) ∧
    (∀ f, exec i s = .fault f ↔ exec j s = .fault f)

/-- D1, D3, R57: `Rt` = 15 is refused as such whatever else holds; a condition that fails is refused as such; an
admitted execution is never refused. Refusing is the spec's decision (D1, D3) and the order the model's (log entries
17, 18, 23). -/
def Obligations.AdmissionDecidesRefusal : Prop :=
  ∀ (i : Instr) (s : State),
    (i.rt.val = 15 → exec i s = .refused .rtIsPC) ∧
    (i.rt.val < 15 → i.set = .t32 → s.inp.conditionPassed = false → exec i s = .refused .conditionFailed) ∧
    (∀ cond rt crm, i = .mrcA32 cond rt crm ∨ i = .mcrA32 cond rt crm → rt.val < 15 → cond ≠ 0b1110#4 →
      cond ≠ 0b1111#4 → s.inp.conditionPassed = false → exec i s = .refused .conditionFailed) ∧
    (Admitted i s → ∀ r, exec i s ≠ .refused r)

/-! ### What the instructions do -/

/-- R61, R65: a permitted `MRC` (A32 or T32) of an implemented register that holds `v` completes, with the stored bits
in the general register and nothing else changed. That `x[t]` is the destination is the spec's decision D23 (log entry
21). -/
def Obligations.MrcReadsTheStoredValue : Prop :=
  ∀ (i : Instr) (s : State) (t : Fin 15) (v : Word),
    i.isRead = true → Admitted i s → Permitted s → s.implemented i.crm = true → i.rt.val = t.val →
    (s.wcrAt i.crm).contents = .held v →
    exec i s = .next { s with x := s.x.set t.val (Stored s.cfg v) t.isLt }

/-- R30, R65, D14: a permitted `MRC` of a register still UNKNOWN completes with some 32 bits; the register stays
UNKNOWN, and nothing changes but `x[t]` and the count of free values. That each use is a draw of its own is the spec's
decision D14 (log entry 7); that the RES0 bits of the value are 0 where they are no storage is R32 and its D5 (log
entry 9). -/
def Obligations.MrcOfUnknownRegisterDraws : Prop :=
  ∀ (i : Instr) (s : State) (t : Fin 15),
    i.isRead = true → Admitted i s → Permitted s → s.implemented i.crm = true → i.rt.val = t.val →
    (s.wcrAt i.crm).contents = .unknown →
    ∃ (v : Word) (k : Nat), exec i s = .next { s with x := s.x.set t.val v t.isLt, draws := k } ∧ s.draws < k ∧
      (s.cfg.res0IsStorage = false → v &&& 0xE0E00000#32 = 0)

/-- R62, R64: a permitted `MCR` (A32 or T32) to an implemented register completes, all 32 bits written by
`StoreValue`, the old contents kept for the window of R47 (the spec's decision D11, log entry 11), and nothing else
changed. -/
def Obligations.McrWritesTheWholeRegister : Prop :=
  ∀ (i : Instr) (s : State) (t : Fin 15),
    i.isRead = false → Admitted i s → Permitted s → s.implemented i.crm = true → i.rt.val = t.val →
    exec i s = .next { s with
      wcr := s.wcr.set i.crm.val
        ⟨.held (Stored s.cfg (s.x.get t)), (s.wcrAt i.crm).stale ++ [(s.wcrAt i.crm).contents]⟩ i.crm.isLt }

/-- R64: what a write leaves, bit by bit: RW bits as written, reserved encodings included; RES0 bits as written or 0
(the spec's decision D5, log entry 9). -/
def Obligations.StoreValueKeepsEveryField : Prop :=
  ∀ (i : Instr) (s : State) (t : Fin 15),
    i.isRead = false → Admitted i s → Permitted s → s.implemented i.crm = true → i.rt.val = t.val →
    ∃ u w, exec i s = .next u ∧ (u.wcrAt i.crm).contents = .held w ∧
      w &&& 0x1F1FFFFF#32 = s.readX t &&& 0x1F1FFFFF#32 ∧
      (s.cfg.res0IsStorage = true → w &&& 0xE0E00000#32 = s.readX t &&& 0xE0E00000#32) ∧
      (s.cfg.res0IsStorage = false → w &&& 0xE0E00000#32 = 0)

/-- R61, R42, R35, R36: the frame of `MRC`. Whatever it completes in, every general register but `Rt`, every `DBGWCR`,
the value registers, the inputs, the program counter and the program text are as before. -/
def Obligations.MrcFrame : Prop :=
  ∀ (i : Instr) (s u : State), i.isRead = true → exec i s = .next u →
    (∀ t : Fin 15, t.val ≠ i.rt.val → u.readX t = s.readX t) ∧
    (∀ n, u.wcrAt n = s.wcrAt n) ∧ u.wvr = s.wvr ∧ u.inp = s.inp ∧ u.cfg = s.cfg ∧ u.pc = s.pc ∧ u.iset = s.iset ∧
    u.schedule = s.schedule ∧ u.report = s.report ∧ (∀ a, Memory.read u.text a = Memory.read s.text a)

/-- R62, R10, R35, R36: the frame of `MCR`. Every other `DBGWCR`, every general register and all else are as
before. -/
def Obligations.McrFrame : Prop :=
  ∀ (i : Instr) (s u : State), i.isRead = false → exec i s = .next u →
    (∀ n, n ≠ i.crm → u.wcrAt n = s.wcrAt n) ∧ (∀ t, u.readX t = s.readX t) ∧ u.wvr = s.wvr ∧ u.inp = s.inp ∧
    u.cfg = s.cfg ∧ u.pc = s.pc ∧ u.iset = s.iset ∧ u.schedule = s.schedule ∧ u.report = s.report ∧
    u.draws = s.draws ∧ (∀ a, Memory.read u.text a = Memory.read s.text a)

/-- R65, R46: an `MCR` of a register followed by an `MRC` of the same register, by any two general registers and in
either instruction set, returns the value written, field by field. -/
def Obligations.WriteThenReadReturnsTheValue : Prop :=
  ∀ (i j : Instr) (s : State) (t r : Fin 15),
    i.isRead = false → j.isRead = true → i.crm = j.crm → Admitted i s → Admitted j s → Permitted s →
    s.implemented i.crm = true → i.rt.val = t.val → j.rt.val = r.val →
    ∃ u v, exec i s = .next u ∧ exec j u = .next v ∧
      v.readX r &&& 0x1F1FFFFF#32 = s.readX t &&& 0x1F1FFFFF#32 ∧
      v.readX r &&& 0xE0E00000#32 = (if s.cfg.res0IsStorage = true then s.readX t &&& 0xE0E00000#32 else 0)

/-- R42: two reads of a written register with no write between return the same value. -/
def Obligations.RepeatedReadsAgree : Prop :=
  ∀ (i j : Instr) (s : State) (t r : Fin 15) (v : Word),
    i.isRead = true → j.isRead = true → i.crm = j.crm → Admitted i s → Admitted j s → Permitted s →
    s.implemented i.crm = true → i.rt.val = t.val → j.rt.val = r.val → (s.wcrAt i.crm).contents = .held v →
    ∃ u w, exec i s = .next u ∧ exec j u = .next w ∧ u.readX t = w.readX r

/-- R40: the three names of a register are one storage: every path reads the same, and a write through any of them is
what a read through any of them returns. For an UNKNOWN register that two reads of one state agree is the model's own:
the draw depends on the count of free values alone (log entry 7). The RES0 bits follow the spec's decision D5 (log
entry 9). -/
def Obligations.ThreeNamesAreOneStorage : Prop :=
  ∀ (p q : AccessPath) (s : State) (n : Fin 16) (v : Word),
    s.readPath p n = s.readPath q n ∧ s.writePath p n v = s.writePath q n v ∧
    ((s.writePath p n v).readPath q n).1 &&& 0x1F1FFFFF#32 = v &&& 0x1F1FFFFF#32 ∧
    (s.cfg.res0IsStorage = true → ((s.writePath p n v).readPath q n).1 = v)

/-- R12, R32 (the spec's decision D5, log entry 9): where the RES0 bits are no storage a read of any register, UNKNOWN
or not, has them 0. -/
def Obligations.Res0BitsReadAsZero : Prop :=
  ∀ (p : AccessPath) (s : State) (n : Fin 16), s.cfg.res0IsStorage = false →
    (s.readPath p n).1 &&& 0xE0E00000#32 = 0

/-- R87: executing an access again after an outcome runs the check afresh against the inputs of that moment. An
outcome carries no state, so `s` is the state it leaves, whichever it was; under inputs that permit the access it
completes on the registers of `s`, the read delivering what they hold, the write leaving what the general register
holds, and nothing else changed. In the machine this is the enclosing processor changing the inputs and executing
again (log entries 1, 5, 16). The RES0 bits follow the spec's D5 (log entry 9), the destination its D23 (log entry
21). -/
def Obligations.ReexecutionAfterAnOutcome : Prop :=
  ∀ (i : Instr) (s : State) (inp : Inputs), s.implemented i.crm = true →
    Admitted i { s with inp := inp } → Permitted { s with inp := inp } →
    ∃ u, exec i { s with inp := inp } = .next u ∧
      (∀ n, n ≠ i.crm → u.wcrAt n = s.wcrAt n) ∧ (∀ t : Fin 15, t.val ≠ i.rt.val → u.readX t = s.readX t) ∧
      (i.isRead = true → u.wcrAt i.crm = s.wcrAt i.crm) ∧
      (i.isRead = true → ∀ (t : Fin 15) (v : Word), t.val = i.rt.val → (s.wcrAt i.crm).contents = .held v →
        u.readX t = Stored s.cfg v) ∧
      (i.isRead = true → ∀ t : Fin 15, t.val = i.rt.val → (s.wcrAt i.crm).contents = .unknown →
        s.cfg.res0IsStorage = false → u.readX t &&& 0xE0E00000#32 = 0) ∧
      (i.isRead = false → u.x = s.x) ∧
      (i.isRead = false → ∀ t : Fin 15, t.val = i.rt.val →
        (u.wcrAt i.crm).contents = .held (Stored s.cfg (s.readX t))) ∧
      u.inp = inp ∧ u.wvr = s.wvr ∧ u.cfg = s.cfg ∧ u.pc = s.pc ∧ u.text = s.text ∧
      (∀ w, s.fetch = some w → decode s.iset w = .instr i →
        Sys2Proof.core.run 2 (s.withSchedule [.setInputs inp, .execute]) =
          .next { u with pc := s.pc + 4#32, schedule := [] })

/-! ### Watchpoint matching -/

/-- R28: with E = 0 the watchpoint generates no event, whatever its other fields hold and whatever the parameters are;
the other fields are still stored and read back (what R28 derives from R61 and R62). That the stored value alone
governs once no earlier one is waiting is the spec's decision D11 (log entry 11). -/
def Obligations.DisabledWatchpointIgnoresItsFields : Prop :=
  (∀ (p : MatchParams) (c w : Word) (a : Access), eOf c = 0#1 → matchVerdict p c w a = .noMatch) ∧
  (∀ (s : State) (a : Access) (n : Fin 16) (c : Word), s.wcrAt n = ⟨.held c, []⟩ → eOf c = 0#1 →
    s.verdictOn a n = .noMatch ∧ n ∉ s.eventsOn a) ∧
  (∀ (p q : AccessPath) (s : State) (n : Fin 16) (c : Word), eOf c = 0#1 →
    ((s.writePath p n c).readPath q n).1 &&& 0x1F1FFFFF#32 = c &&& 0x1F1FFFFF#32)

/-- R25: with LSC = 0b00 the watchpoint generates no event, exactly as with E = 0, and the field reads back as 0b00.
That the stored value alone governs once no earlier one is waiting is the spec's decision D11 (log entry 11). -/
def Obligations.ReservedLoadStoreControlDisables : Prop :=
  (∀ (p : MatchParams) (c w : Word) (a : Access), lscOf c = 0b00#2 → matchVerdict p c w a = .noMatch) ∧
  (∀ (s : State) (a : Access) (n : Fin 16) (c : Word), s.wcrAt n = ⟨.held c, []⟩ → lscOf c = 0b00#2 →
    s.verdictOn a n = .noMatch ∧ n ∉ s.eventsOn a) ∧
  (∀ (p q : AccessPath) (s : State) (n : Fin 16) (c : Word), lscOf c = 0b00#2 →
    lscOf ((s.writePath p n c).readPath q n).1 = 0b00#2)

/-- R24: a watchpoint for loads only does not match a store, nor one for stores only a load, whatever its other fields
hold. -/
def Obligations.OtherAccessTypeNeverMatches : Prop :=
  ∀ (p : MatchParams) (c w : Word) (a : Access),
    (lscOf c = 0b01#2 → a.kind = .store → matchVerdict p c w a = .noMatch) ∧
    (lscOf c = 0b10#2 → a.kind = .load → matchVerdict p c w a = .noMatch)

/-- R81: `TypeMatch`. -/
def Obligations.TypeMatchTable : Prop :=
  ∀ lsc : BitVec 2,
    (typeMatch lsc .load = true ↔ lsc.getLsbD 0 = true) ∧ (typeMatch lsc .store = true ↔ lsc.getLsbD 1 = true) ∧
    (lsc = 0b01#2 → typeMatch lsc .load = true ∧ typeMatch lsc .store = false) ∧
    (lsc = 0b10#2 → typeMatch lsc .load = false ∧ typeMatch lsc .store = true) ∧
    (lsc = 0b11#2 → typeMatch lsc .load = true ∧ typeMatch lsc .store = true) ∧
    (lsc = 0b00#2 → typeMatch lsc .load = false ∧ typeMatch lsc .store = false)

/-- R14: a reserved MASK behaves as if the watchpoint were disabled, or as if MASK were the defined value chosen (0,
or 3..31), and a direct read returns the reserved value programmed. -/
def Obligations.ReservedMaskBehavesAsIf : Prop :=
  (∀ (p : MatchParams) (c w : Word) (a : Access), maskOf c = 1#5 ∨ maskOf c = 2#5 →
    (p.reservedMask = .disabled → matchVerdict p c w a = .noMatch) ∧
    (p.reservedMask = .unmasked → matchVerdict p c w a = matchVerdict p (withMask c 0#5) w a) ∧
    (∀ k : Fin 29, p.reservedMask = .masked k →
      matchVerdict p c w a = matchVerdict p (withMask c (BitVec.ofNat 5 (k.val + 3))) w a)) ∧
  (∀ (p q : AccessPath) (s : State) (n : Fin 16) (c : Word), maskOf c = 1#5 ∨ maskOf c = 2#5 →
    maskOf ((s.writePath p n c).readPath q n).1 = maskOf c)

/-- R79, R21, R22: with no mask, on a word-aligned value register and a valid BAS, an armed watchpoint whose
parameters hold matches exactly when some byte touched is one that a set BAS bit selects. (The premises are the spec's
decisions D10 and D18, "some byte touched" its D21: log entries 19, 20.) -/
def Obligations.UnmaskedMatchIsByteSelect : Prop :=
  ∀ (p : MatchParams) (c w : Word) (a : Access), Armed c a → ParamsHold p c a.context → maskOf c = 0#5 →
    w.toNat % 4 = 0 → basValid (basOf c) = true →
    (matchVerdict p c w a = .matched ↔
      ∃ b ∈ a.bytes, ∃ k : Nat, k < (if w.getLsbD 2 then 4 else 8) ∧ (basOf c).getLsbD k = true ∧
        b.toNat = w.toNat + k) ∧
    (matchVerdict p c w a = .matched ∨ matchVerdict p c w a = .noMatch)

/-- R22: with `DBGWVR<n>[2] == 1` the watched bytes are W+k, k = 0..3 with BAS[k] == 1, whatever BAS[7:4] holds; those
bits are still stored and read back. -/
def Obligations.WordAddressIgnoresHighByteSelects : Prop :=
  (∀ (bas : BitVec 8) (w a : Word), w.getLsbD 2 = true →
    (watches bas w a = true ↔ ∃ k : Fin 4, bas.getLsbD k.val = true ∧ a = w + BitVec.ofNat 32 k.val)) ∧
  (∀ (bas bas' : BitVec 8) (w a : Word), w.getLsbD 2 = true → bas &&& 0x0F#8 = bas' &&& 0x0F#8 →
    watches bas w a = watches bas' w a) ∧
  (∀ (p q : AccessPath) (s : State) (n : Fin 16) (c : Word),
    basOf ((s.writePath p n c).readPath q n).1 = basOf c)

/-- R80: with MASK = m, 3 <= m <= 31, BAS = 0xFF and the masked bits of the value register zero, an armed watchpoint
whose parameters hold matches exactly when some byte touched lies in the aligned block of 2^m bytes that contains W;
with another BAS or a masked bit set it is refused for that (the spec's decision D9, log entry 20). -/
def Obligations.MaskedMatchIsAlignedBlock : Prop :=
  ∀ (p : MatchParams) (c w : Word) (a : Access), Armed c a → 3 ≤ (maskOf c).toNat →
    (ParamsHold p c a.context → basOf c = 0xFF#8 → w.toNat % 2 ^ (maskOf c).toNat = 0 →
      (matchVerdict p c w a = .matched ↔
        ∃ b ∈ a.bytes, b.toNat / 2 ^ (maskOf c).toNat = w.toNat / 2 ^ (maskOf c).toNat) ∧
      (matchVerdict p c w a = .matched ∨ matchVerdict p c w a = .noMatch)) ∧
    (basOf c ≠ 0xFF#8 ∨ w.toNat % 2 ^ (maskOf c).toNat ≠ 0 →
      ∃ rs, matchVerdict p c w a = .refused rs ∧ MatchRefusal.maskWithBAS ∈ rs)

/-- R43: bit 31 is compared under every mask: an access whose bytes all lie in the other half of the address space is
never matched. -/
def Obligations.MaskNeverSpansBothHalves : Prop :=
  ∀ (p : MatchParams) (c w : Word) (a : Access), (∀ b ∈ a.bytes, b.getLsbD 31 ≠ w.getLsbD 31) →
    matchVerdict p c w a ≠ .matched

/-- R84, R79, R80, R82, R83: an armed watchpoint with a defined MASK is refused exactly when the value register is not
word aligned, or BAS is reserved, or a mask stands with BAS != 0xFF or a masked bit set, or a parameter answers
Reserved. (The spec's decisions D7 to D10, D18: log entries 13, 14, 20.) -/
def Obligations.RefusedExactlyWhen : Prop :=
  ∀ (p : MatchParams) (c w : Word) (a : Access), Armed c a → maskOf c ≠ 1#5 → maskOf c ≠ 2#5 →
    ((∃ rs, matchVerdict p c w a = .refused rs) ↔
      (w.toNat % 4 ≠ 0 ∨ basValid (basOf c) = false ∨
        (3 ≤ (maskOf c).toNat ∧ (basOf c ≠ 0xFF#8 ∨ w.toNat % 2 ^ (maskOf c).toNat ≠ 0)) ∨
        p.stateMatch (sscOf c) (hmcOf c) (pacOf c) a.context = .reserved ∨
        (wtOf c = 1#1 ∧ p.linkMatch (lbnOf c) a.context = .reserved)))

/-- R78: a match needs an armed watchpoint and every condition of the conjunction: the state and the link condition,
and the address match under the mask in force. With no mask some byte touched is one that a set BAS bit selects; with
a mask of m bits BAS is 0xFF, the masked bits of the value register are 0, and some byte touched lies in the aligned
block of 2^m bytes that contains W. (That refused values never match is the spec's decisions D9, D10, D18, and the
reserved MASK's D6: log entries 12, 20.) -/
def Obligations.MatchNeedsEveryCondition : Prop :=
  ∀ (p : MatchParams) (c w : Word) (a : Access), matchVerdict p c w a = .matched →
    Armed c a ∧ ParamsHold p c a.context ∧ basValid (basOf c) = true ∧ w.toNat % 4 = 0 ∧
    ∃ m, effectiveMask p.reservedMask (maskOf c) = some m ∧ (m = 0 ∨ (3 ≤ m ∧ m ≤ 31)) ∧
      addrMatch m (basOf c) w a.bytes = true ∧
      (m = 0 → ∃ b ∈ a.bytes, ∃ k : Nat, k < (if w.getLsbD 2 then 4 else 8) ∧ (basOf c).getLsbD k = true ∧
        b.toNat = w.toNat + k) ∧
      (3 ≤ m → basOf c = 0xFF#8 ∧ w.toNat % 2 ^ m = 0 ∧ ∃ b ∈ a.bytes, b.toNat / 2 ^ m = w.toNat / 2 ^ m)

/-- R83, R18: with WT = 0 the link parameter and the LBN field have no effect. -/
def Obligations.UnlinkedWatchpointIgnoresLink : Prop :=
  ∀ (p p' : MatchParams) (c w : Word) (a : Access) (lbn : BitVec 4), wtOf c = 0#1 →
    p.stateMatch = p'.stateMatch → p.reservedMask = p'.reservedMask →
    matchVerdict p c w a =
      matchVerdict p' (pack (r31Of c) (maskOf c) (r23Of c) (wtOf c) lbn (sscOf c) (hmcOf c) (basOf c) (lscOf c) (pacOf c)
        (eOf c)) w a

/-- R12, R16: the RES0 bits have no effect on any watchpoint behaviour. -/
def Obligations.Res0BitsDoNotAffectMatching : Prop :=
  ∀ (p : MatchParams) (c c' w : Word) (a : Access), c &&& 0x1F1FFFFF#32 = c' &&& 0x1F1FFFFF#32 →
    matchVerdict p c w a = matchVerdict p c' w a

/-- R79: an access that touches every byte of one that matches matches too (the spec's decision D21, log entry 19). -/
def Obligations.WiderAccessStillMatches : Prop :=
  ∀ (p : MatchParams) (c w : Word) (a b : Access), a.kind = b.kind → a.context = b.context →
    (∀ x ∈ a.bytes, x ∈ b.bytes) → matchVerdict p c w a = .matched → matchVerdict p c w b = .matched

/-- R93, R84: on a word-aligned value register a watchpoint programmed with a well-formed value is not refused, if
with a mask BAS is 0xFF and the masked bits of the value register are 0, and the parameters do not call its SSC, HMC,
PAC or its link reserved. Well-formedness (R93) does not ask for these: `0x0300079F` is well-formed and refused for
its mask with BAS. Asking for them is the spec's decisions D7, D8, D9 and D18 (log entries 13, 20). -/
def Obligations.WellFormedValuesAreNotRefused : Prop :=
  ∀ (p : MatchParams) (c w : Word) (a : Access) (rs : List MatchRefusal), Safety.wellFormedWcr c = true →
    w.toNat % 4 = 0 → ((maskOf c).toNat = 0 ∨ (basOf c = 0xFF#8 ∧ w.toNat % 2 ^ (maskOf c).toNat = 0)) →
    p.stateMatch (sscOf c) (hmcOf c) (pacOf c) a.context ≠ .reserved →
    (wtOf c = 0#1 ∨ p.linkMatch (lbnOf c) a.context ≠ .reserved) →
    matchVerdict p c w a ≠ .refused rs

/-! ### The environment -/

/-- R30, R90: a Cold reset may come in every state; after it every implemented register is UNKNOWN with nothing of its
previous value left to govern matching, and nothing else is changed (that the enclosing processor's state stays is the
model's choice, log entry 22). -/
def Obligations.ColdResetLeavesNothing : Prop :=
  ∀ (s : State) (rest : List Event), s.schedule = .coldReset :: rest →
    ∃ u, step s = .next u ∧ (∀ n, s.implemented n = true → u.wcrAt n = ⟨.unknown, []⟩) ∧
      (∀ n, s.implemented n = false → u.wcrAt n = s.wcrAt n) ∧ u.schedule = rest ∧ u.x = s.x ∧ u.wvr = s.wvr ∧
      u.inp = s.inp ∧ u.cfg = s.cfg ∧ u.pc = s.pc ∧ u.iset = s.iset ∧ u.text = s.text ∧ u.report = s.report ∧
      u.draws = s.draws

/-- R31, R91: a Warm reset leaves every register as it was, UNKNOWN ones included. That the values waiting to be
matched stay, and that the enclosing processor's state is left as it is, is the model's choice (log entries 11,
27). -/
def Obligations.WarmResetLeavesEverything : Prop :=
  ∀ (s : State) (rest : List Event), s.schedule = .warmReset :: rest →
    step s = .next { s with schedule := rest }

/-- R48 (the spec's decision D12, log entry 16): a write by the AArch64 or External path changes the one register of
an implemented watchpoint where such writers exist; where they do not, or the watchpoint does not, there is no such
step. That the overwritten contents may still govern matching is the window of R47 (the spec's decision D11, log entry
11). -/
def Obligations.OtherWritersWriteTheSameStorage : Prop :=
  ∀ (s : State) (rest : List Event) (path : OtherPath) (n : Fin 16) (v : Word),
    s.schedule = .otherWrite path n v :: rest →
    (s.cfg.otherWriters = true → s.implemented n = true →
      ∃ u, step s = .next u ∧ u.wcrAt n = ⟨.held (Stored s.cfg v), (s.wcrAt n).stale ++ [(s.wcrAt n).contents]⟩ ∧
        (∀ m, m ≠ n → u.wcrAt m = s.wcrAt m) ∧ u.schedule = rest ∧ u.x = s.x ∧ u.wvr = s.wvr ∧ u.inp = s.inp ∧
        u.cfg = s.cfg ∧ u.pc = s.pc ∧ u.iset = s.iset ∧ u.text = s.text ∧ u.report = s.report) ∧
    (s.cfg.otherWriters = false → step s = .refused .otherWritersExcluded) ∧
    (s.cfg.otherWriters = true → s.implemented n = false → step s = .refused .otherWriteUnimplemented)

/-- R47 (the spec's decision D11, log entry 11): a synchronisation point leaves the stored value alone to govern
matching, and changes no value. -/
def Obligations.SynchronisationClosesTheWindow : Prop :=
  ∀ (s : State) (rest : List Event) (n : Fin 16), s.schedule = .synchronise n :: rest →
    ∃ u, step s = .next u ∧ (u.wcrAt n).candidates = [(s.wcrAt n).contents] ∧
      (u.wcrAt n).contents = (s.wcrAt n).contents ∧ (∀ m, m ≠ n → u.wcrAt m = s.wcrAt m) ∧ u.x = s.x

/-- R47, R78, R85: a data access completes with a report of it. The verdict of an implemented watchpoint is that of
the match predicate on one of the values that may govern it, for some choice of R14: the stored value alone once
synchronised. That of an unimplemented one is false. No event comes from a watchpoint whose verdict is false; the
registers stay. (The spec's decisions D6, D11, D15 and the model's report: log entries 11, 12, 14, 15.) -/
def Obligations.DataAccessIsMatchedOnGoverningValues : Prop :=
  ∀ (s : State) (rest : List Event) (a : Access), s.schedule = .dataAccess a :: rest →
    ∃ u r, step s = .next u ∧ u.report = some r ∧ r.access = a ∧ u.wcr = s.wcr ∧ u.x = s.x ∧ s.draws < u.draws ∧
      (∀ n, n ∈ r.events → r.verdicts.get n ≠ .noMatch) ∧
      (∀ n, s.implemented n = false → r.verdicts.get n = .noMatch) ∧
      (∀ n, s.implemented n = true → ∃ g ∈ (s.wcrAt n).candidates, ∃ (free : Word) (choice : ReservedMaskAs),
        r.verdicts.get n =
          matchVerdict ⟨Config.stateMatch, Config.linkMatch, choice⟩ (contentsValue s.cfg free g) (s.wvr.get n) a) ∧
      (∀ n v, s.implemented n = true → s.wcrAt n = ⟨.held v, []⟩ → ∃ choice : ReservedMaskAs,
        r.verdicts.get n =
          matchVerdict ⟨Config.stateMatch, Config.linkMatch, choice⟩ (Stored s.cfg v) (s.wvr.get n) a)

/-- R33 to R35: the enclosing processor's own changes touch no register of this hardware. -/
def Obligations.EnclosingProcessorChangesOnlyItsOwn : Prop :=
  ∀ (s : State) (rest : List Event) (e : Event), s.schedule = e :: rest →
    (∀ i, e = .setInputs i → ∃ u, step s = .next u ∧ u.inp = i ∧ u.wcr = s.wcr ∧ u.x = s.x ∧ u.wvr = s.wvr) ∧
    (∀ n w, e = .setWvr n w → ∃ u, step s = .next u ∧ u.wvrAt n = w ∧ (∀ m, m ≠ n → u.wvrAt m = s.wvrAt m) ∧
      u.wcr = s.wcr ∧ u.x = s.x ∧ u.inp = s.inp) ∧
    (∀ t v, e = .setX t v → ∃ u, step s = .next u ∧ u.readX t = v ∧ (∀ r, r ≠ t → u.readX r = s.readX r) ∧
      u.wcr = s.wcr ∧ u.wvr = s.wvr ∧ u.inp = s.inp) ∧
    (∀ pc set, e = .setPc pc set → ∃ u, step s = .next u ∧ u.pc = pc ∧ u.iset = set ∧ u.wcr = s.wcr ∧ u.x = s.x ∧
      u.inp = s.inp)

/-! ### The machine -/

/-- A step with nothing scheduled, or with `execute` scheduled, runs the instruction that the word at the program
counter decodes to; a completed one is followed by the next in program order, four bytes on, and any other outcome
ends the step (R7, R35, D2). A word that is no access to this hardware, and the absence of one, are refused. Fetching
is the model's own (log entry 5). -/
def Obligations.StepRunsTheDecodedInstruction : Prop :=
  ∀ s s₀ : State,
    (s.schedule = [] ∧ s₀ = s) ∨ (∃ rest, s.schedule = .execute :: rest ∧ s₀ = { s with schedule := rest }) →
    (∀ w i, Memory.read s₀.text s₀.pc.toNat = some w → decode s₀.iset w = .instr i →
      (∀ u, exec i s₀ = .next u → step s = .next { u with pc := u.pc + 4#32 }) ∧
      (∀ f, exec i s₀ = .fault f → step s = .fault f) ∧ (∀ r, exec i s₀ = .refused r → step s = .refused r)) ∧
    (∀ w e, Memory.read s₀.text s₀.pc.toNat = some w → decode s₀.iset w = .reject e →
      step s = .refused (.otherInstruction e)) ∧
    (Memory.read s₀.text s₀.pc.toNat = none → step s = .refused .noProgramText)

/-- R30: what the spec gives for the state after a Cold reset: every register UNKNOWN. The invariant holds there. -/
def Obligations.ResetRegistersAreUnknown : Prop :=
  (∀ n, State.reset.wcrAt n = ⟨.unknown, []⟩) ∧ Inv State.reset

/-- Every step keeps the invariant. -/
def Obligations.StepKeepsTheInvariant : Prop :=
  ∀ s u : State, Inv s → step s = .next u → Inv u

/-- R4, D19: no step changes a static parameter or the program text. -/
def Obligations.ParametersAndTextNeverChange : Prop :=
  ∀ s u : State, step s = .next u → u.cfg = s.cfg ∧ u.text = s.text

/-- R10, R46, R48, R90: only an `MCR` of register n, a write of it by another path, or a Cold reset changes what
register n holds, and only where watchpoint n is implemented. -/
def Obligations.OnlyWritersChangeARegister : Prop :=
  ∀ (s u : State) (n : Fin 16), step s = .next u →
    (u.wcrAt n).contents = (s.wcrAt n).contents ∨ (Writes s n ∧ s.implemented n = true)

/-- R34, R61: only an `MRC` naming it, or the enclosing processor, changes a general register. That a Cold reset and a
Warm reset leave the general registers as they are is the model's choice, since R90 leaves the enclosing processor's
state to it (log entries 22, 27). -/
def Obligations.OnlyMrcOrTheProcessorWritesX : Prop :=
  ∀ (s u : State) (t : Fin 15), step s = .next u →
    u.readX t = s.readX t ∨ (∃ i, Current s = some i ∧ i.isRead = true ∧ i.rt.val = t.val) ∨
    (∃ v, s.schedule.head? = some (.setX t v))

/-- R92: the boot duty done. An `MCR` of a value with E = 0, then the synchronisation point, and whatever data access
follows, watchpoint n gives no match and no event. That the synchronisation point ends the window is the spec's
decision D11 (log entry 11); the report of no event for a false verdict its D15 (log entry 15). -/
def Obligations.BootDutyQuietsAWatchpoint : Prop :=
  ∀ (i : Instr) (s : State) (t : Fin 15), i.isRead = false → Admitted i s → Permitted s →
    s.implemented i.crm = true → i.rt.val = t.val → eOf (s.readX t) = 0#1 →
    ∃ u, exec i s = .next u ∧ ∀ a : Access, ∃ v r,
      Sys2Proof.core.run 2 (u.withSchedule [.synchronise i.crm, .dataAccess a]) = .next v ∧
      v.report = some r ∧ r.verdicts.get i.crm = .noMatch ∧ i.crm ∉ r.events

/-- R28, R46, R47: a watchpoint that is quiet stays quiet: in every step that does not write its register it stays so,
and if the step is a data access the report has no match and no event for it. The window it is free of is the spec's
decision D11 (log entry 11). -/
def Obligations.QuietWatchpointStaysQuiet : Prop :=
  ∀ (s u : State) (n : Fin 16), Safety.quiet s n = true → ¬ Writes s n → step s = .next u →
    Safety.quiet u n = true ∧
    (∀ a, s.schedule.head? = some (.dataAccess a) →
      ∃ r, u.report = some r ∧ r.verdicts.get n = .noMatch ∧ n ∉ r.events)
end

