-- ==== Sys2Proof/Laws/State.lean ====
section
/-! SUPPORT. One lemma per field per update of the state, each true by rfl: no later proof unfolds a record update. -/

namespace Sys2Proof.Machine

variable (s : State)

@[simp] theorem State.writeX_cfg (t : Fin 15) (v : Word) : (s.writeX t v).cfg = s.cfg := rfl
@[simp] theorem State.writeX_wcr (t : Fin 15) (v : Word) : (s.writeX t v).wcr = s.wcr := rfl
@[simp] theorem State.writeX_wvr (t : Fin 15) (v : Word) : (s.writeX t v).wvr = s.wvr := rfl
@[simp] theorem State.writeX_x (t : Fin 15) (v : Word) : (s.writeX t v).x = s.x.set t.val v t.isLt := rfl
@[simp] theorem State.writeX_inp (t : Fin 15) (v : Word) : (s.writeX t v).inp = s.inp := rfl
@[simp] theorem State.writeX_pc (t : Fin 15) (v : Word) : (s.writeX t v).pc = s.pc := rfl
@[simp] theorem State.writeX_iset (t : Fin 15) (v : Word) : (s.writeX t v).iset = s.iset := rfl
@[simp] theorem State.writeX_text (t : Fin 15) (v : Word) : (s.writeX t v).text = s.text := rfl
@[simp] theorem State.writeX_schedule (t : Fin 15) (v : Word) : (s.writeX t v).schedule = s.schedule := rfl
@[simp] theorem State.writeX_report (t : Fin 15) (v : Word) : (s.writeX t v).report = s.report := rfl
@[simp] theorem State.writeX_draws (t : Fin 15) (v : Word) : (s.writeX t v).draws = s.draws := rfl

@[simp] theorem State.setWcr_cfg (n : Fin 16) (r : Wcr) : (s.setWcr n r).cfg = s.cfg := rfl
@[simp] theorem State.setWcr_wcr (n : Fin 16) (r : Wcr) : (s.setWcr n r).wcr = s.wcr.set n.val r n.isLt := rfl
@[simp] theorem State.setWcr_wvr (n : Fin 16) (r : Wcr) : (s.setWcr n r).wvr = s.wvr := rfl
@[simp] theorem State.setWcr_x (n : Fin 16) (r : Wcr) : (s.setWcr n r).x = s.x := rfl
@[simp] theorem State.setWcr_inp (n : Fin 16) (r : Wcr) : (s.setWcr n r).inp = s.inp := rfl
@[simp] theorem State.setWcr_pc (n : Fin 16) (r : Wcr) : (s.setWcr n r).pc = s.pc := rfl
@[simp] theorem State.setWcr_iset (n : Fin 16) (r : Wcr) : (s.setWcr n r).iset = s.iset := rfl
@[simp] theorem State.setWcr_text (n : Fin 16) (r : Wcr) : (s.setWcr n r).text = s.text := rfl
@[simp] theorem State.setWcr_schedule (n : Fin 16) (r : Wcr) : (s.setWcr n r).schedule = s.schedule := rfl
@[simp] theorem State.setWcr_report (n : Fin 16) (r : Wcr) : (s.setWcr n r).report = s.report := rfl
@[simp] theorem State.setWcr_draws (n : Fin 16) (r : Wcr) : (s.setWcr n r).draws = s.draws := rfl

@[simp] theorem State.usedDraws_cfg (k : Nat) : (s.usedDraws k).cfg = s.cfg := rfl
@[simp] theorem State.usedDraws_wcr (k : Nat) : (s.usedDraws k).wcr = s.wcr := rfl
@[simp] theorem State.usedDraws_wvr (k : Nat) : (s.usedDraws k).wvr = s.wvr := rfl
@[simp] theorem State.usedDraws_x (k : Nat) : (s.usedDraws k).x = s.x := rfl
@[simp] theorem State.usedDraws_inp (k : Nat) : (s.usedDraws k).inp = s.inp := rfl
@[simp] theorem State.usedDraws_pc (k : Nat) : (s.usedDraws k).pc = s.pc := rfl
@[simp] theorem State.usedDraws_iset (k : Nat) : (s.usedDraws k).iset = s.iset := rfl
@[simp] theorem State.usedDraws_text (k : Nat) : (s.usedDraws k).text = s.text := rfl
@[simp] theorem State.usedDraws_schedule (k : Nat) : (s.usedDraws k).schedule = s.schedule := rfl
@[simp] theorem State.usedDraws_report (k : Nat) : (s.usedDraws k).report = s.report := rfl
@[simp] theorem State.usedDraws_draws (k : Nat) : (s.usedDraws k).draws = s.draws + k := rfl

@[simp] theorem State.setWvr_cfg (n : Fin 16) (w : Word) : (s.setWvr n w).cfg = s.cfg := rfl
@[simp] theorem State.setWvr_wcr (n : Fin 16) (w : Word) : (s.setWvr n w).wcr = s.wcr := rfl
@[simp] theorem State.setWvr_wvr (n : Fin 16) (w : Word) : (s.setWvr n w).wvr = s.wvr.set n.val w n.isLt := rfl
@[simp] theorem State.setWvr_x (n : Fin 16) (w : Word) : (s.setWvr n w).x = s.x := rfl
@[simp] theorem State.setWvr_inp (n : Fin 16) (w : Word) : (s.setWvr n w).inp = s.inp := rfl
@[simp] theorem State.setWvr_pc (n : Fin 16) (w : Word) : (s.setWvr n w).pc = s.pc := rfl
@[simp] theorem State.setWvr_iset (n : Fin 16) (w : Word) : (s.setWvr n w).iset = s.iset := rfl
@[simp] theorem State.setWvr_text (n : Fin 16) (w : Word) : (s.setWvr n w).text = s.text := rfl
@[simp] theorem State.setWvr_schedule (n : Fin 16) (w : Word) : (s.setWvr n w).schedule = s.schedule := rfl
@[simp] theorem State.setWvr_report (n : Fin 16) (w : Word) : (s.setWvr n w).report = s.report := rfl
@[simp] theorem State.setWvr_draws (n : Fin 16) (w : Word) : (s.setWvr n w).draws = s.draws := rfl

@[simp] theorem State.withInputs_cfg (i : Inputs) : (s.withInputs i).cfg = s.cfg := rfl
@[simp] theorem State.withInputs_wcr (i : Inputs) : (s.withInputs i).wcr = s.wcr := rfl
@[simp] theorem State.withInputs_wvr (i : Inputs) : (s.withInputs i).wvr = s.wvr := rfl
@[simp] theorem State.withInputs_x (i : Inputs) : (s.withInputs i).x = s.x := rfl
@[simp] theorem State.withInputs_inp (i : Inputs) : (s.withInputs i).inp = i := rfl
@[simp] theorem State.withInputs_pc (i : Inputs) : (s.withInputs i).pc = s.pc := rfl
@[simp] theorem State.withInputs_iset (i : Inputs) : (s.withInputs i).iset = s.iset := rfl
@[simp] theorem State.withInputs_text (i : Inputs) : (s.withInputs i).text = s.text := rfl
@[simp] theorem State.withInputs_schedule (i : Inputs) : (s.withInputs i).schedule = s.schedule := rfl
@[simp] theorem State.withInputs_report (i : Inputs) : (s.withInputs i).report = s.report := rfl
@[simp] theorem State.withInputs_draws (i : Inputs) : (s.withInputs i).draws = s.draws := rfl

@[simp] theorem State.withPc_cfg (pc : Word) (set : InstrSet) : (s.withPc pc set).cfg = s.cfg := rfl
@[simp] theorem State.withPc_wcr (pc : Word) (set : InstrSet) : (s.withPc pc set).wcr = s.wcr := rfl
@[simp] theorem State.withPc_wvr (pc : Word) (set : InstrSet) : (s.withPc pc set).wvr = s.wvr := rfl
@[simp] theorem State.withPc_x (pc : Word) (set : InstrSet) : (s.withPc pc set).x = s.x := rfl
@[simp] theorem State.withPc_inp (pc : Word) (set : InstrSet) : (s.withPc pc set).inp = s.inp := rfl
@[simp] theorem State.withPc_pc (pc : Word) (set : InstrSet) : (s.withPc pc set).pc = pc := rfl
@[simp] theorem State.withPc_iset (pc : Word) (set : InstrSet) : (s.withPc pc set).iset = set := rfl
@[simp] theorem State.withPc_text (pc : Word) (set : InstrSet) : (s.withPc pc set).text = s.text := rfl
@[simp] theorem State.withPc_schedule (pc : Word) (set : InstrSet) : (s.withPc pc set).schedule = s.schedule := rfl
@[simp] theorem State.withPc_report (pc : Word) (set : InstrSet) : (s.withPc pc set).report = s.report := rfl
@[simp] theorem State.withPc_draws (pc : Word) (set : InstrSet) : (s.withPc pc set).draws = s.draws := rfl

@[simp] theorem State.advance_cfg : (s.advance).cfg = s.cfg := rfl
@[simp] theorem State.advance_wcr : (s.advance).wcr = s.wcr := rfl
@[simp] theorem State.advance_wvr : (s.advance).wvr = s.wvr := rfl
@[simp] theorem State.advance_x : (s.advance).x = s.x := rfl
@[simp] theorem State.advance_inp : (s.advance).inp = s.inp := rfl
@[simp] theorem State.advance_pc : (s.advance).pc = s.pc + instrBytes := rfl
@[simp] theorem State.advance_iset : (s.advance).iset = s.iset := rfl
@[simp] theorem State.advance_text : (s.advance).text = s.text := rfl
@[simp] theorem State.advance_schedule : (s.advance).schedule = s.schedule := rfl
@[simp] theorem State.advance_report : (s.advance).report = s.report := rfl
@[simp] theorem State.advance_draws : (s.advance).draws = s.draws := rfl

@[simp] theorem State.withSchedule_cfg (es : List Event) : (s.withSchedule es).cfg = s.cfg := rfl
@[simp] theorem State.withSchedule_wcr (es : List Event) : (s.withSchedule es).wcr = s.wcr := rfl
@[simp] theorem State.withSchedule_wvr (es : List Event) : (s.withSchedule es).wvr = s.wvr := rfl
@[simp] theorem State.withSchedule_x (es : List Event) : (s.withSchedule es).x = s.x := rfl
@[simp] theorem State.withSchedule_inp (es : List Event) : (s.withSchedule es).inp = s.inp := rfl
@[simp] theorem State.withSchedule_pc (es : List Event) : (s.withSchedule es).pc = s.pc := rfl
@[simp] theorem State.withSchedule_iset (es : List Event) : (s.withSchedule es).iset = s.iset := rfl
@[simp] theorem State.withSchedule_text (es : List Event) : (s.withSchedule es).text = s.text := rfl
@[simp] theorem State.withSchedule_schedule (es : List Event) : (s.withSchedule es).schedule = es := rfl
@[simp] theorem State.withSchedule_report (es : List Event) : (s.withSchedule es).report = s.report := rfl
@[simp] theorem State.withSchedule_draws (es : List Event) : (s.withSchedule es).draws = s.draws := rfl

@[simp] theorem State.placeWord_cfg (set : InstrSet) (w : Word) : (s.placeWord set w).cfg = s.cfg := rfl
@[simp] theorem State.placeWord_wcr (set : InstrSet) (w : Word) : (s.placeWord set w).wcr = s.wcr := rfl
@[simp] theorem State.placeWord_wvr (set : InstrSet) (w : Word) : (s.placeWord set w).wvr = s.wvr := rfl
@[simp] theorem State.placeWord_x (set : InstrSet) (w : Word) : (s.placeWord set w).x = s.x := rfl
@[simp] theorem State.placeWord_inp (set : InstrSet) (w : Word) : (s.placeWord set w).inp = s.inp := rfl
@[simp] theorem State.placeWord_pc (set : InstrSet) (w : Word) : (s.placeWord set w).pc = s.pc := rfl
@[simp] theorem State.placeWord_iset (set : InstrSet) (w : Word) : (s.placeWord set w).iset = set := rfl
@[simp] theorem State.placeWord_text (set : InstrSet) (w : Word) : (s.placeWord set w).text = Memory.write s.text s.pc.toNat w := rfl
@[simp] theorem State.placeWord_schedule (set : InstrSet) (w : Word) : (s.placeWord set w).schedule = [] := rfl
@[simp] theorem State.placeWord_report (set : InstrSet) (w : Word) : (s.placeWord set w).report = s.report := rfl
@[simp] theorem State.placeWord_draws (set : InstrSet) (w : Word) : (s.placeWord set w).draws = s.draws := rfl

@[simp] theorem State.present_cfg (a : Access) : (s.present a).cfg = s.cfg := rfl
@[simp] theorem State.present_wcr (a : Access) : (s.present a).wcr = s.wcr := rfl
@[simp] theorem State.present_wvr (a : Access) : (s.present a).wvr = s.wvr := rfl
@[simp] theorem State.present_x (a : Access) : (s.present a).x = s.x := rfl
@[simp] theorem State.present_inp (a : Access) : (s.present a).inp = s.inp := rfl
@[simp] theorem State.present_pc (a : Access) : (s.present a).pc = s.pc := rfl
@[simp] theorem State.present_iset (a : Access) : (s.present a).iset = s.iset := rfl
@[simp] theorem State.present_text (a : Access) : (s.present a).text = s.text := rfl
@[simp] theorem State.present_schedule (a : Access) : (s.present a).schedule = s.schedule := rfl
@[simp] theorem State.present_report (a : Access) : (s.present a).report = some (s.reportOn a) := rfl
@[simp] theorem State.present_draws (a : Access) : (s.present a).draws = s.draws + 16 := rfl

@[simp] theorem State.coldReset_cfg : (s.coldReset).cfg = s.cfg := rfl
@[simp] theorem State.coldReset_wcr : (s.coldReset).wcr = tabulate fun n => if s.implemented n then ⟨.unknown, []⟩ else s.wcrAt n := rfl
@[simp] theorem State.coldReset_wvr : (s.coldReset).wvr = s.wvr := rfl
@[simp] theorem State.coldReset_x : (s.coldReset).x = s.x := rfl
@[simp] theorem State.coldReset_inp : (s.coldReset).inp = s.inp := rfl
@[simp] theorem State.coldReset_pc : (s.coldReset).pc = s.pc := rfl
@[simp] theorem State.coldReset_iset : (s.coldReset).iset = s.iset := rfl
@[simp] theorem State.coldReset_text : (s.coldReset).text = s.text := rfl
@[simp] theorem State.coldReset_schedule : (s.coldReset).schedule = s.schedule := rfl
@[simp] theorem State.coldReset_report : (s.coldReset).report = s.report := rfl
@[simp] theorem State.coldReset_draws : (s.coldReset).draws = s.draws := rfl

@[simp] theorem State.writePath_cfg (p : AccessPath) (n : Fin 16) (v : Word) : (s.writePath p n v).cfg = s.cfg := rfl
@[simp] theorem State.writePath_wcr (p : AccessPath) (n : Fin 16) (v : Word) : (s.writePath p n v).wcr = s.wcr.set n.val ⟨.held (storeValue s.cfg v), (s.wcrAt n).stale ++ [(s.wcrAt n).contents]⟩ n.isLt := rfl
@[simp] theorem State.writePath_wvr (p : AccessPath) (n : Fin 16) (v : Word) : (s.writePath p n v).wvr = s.wvr := rfl
@[simp] theorem State.writePath_x (p : AccessPath) (n : Fin 16) (v : Word) : (s.writePath p n v).x = s.x := rfl
@[simp] theorem State.writePath_inp (p : AccessPath) (n : Fin 16) (v : Word) : (s.writePath p n v).inp = s.inp := rfl
@[simp] theorem State.writePath_pc (p : AccessPath) (n : Fin 16) (v : Word) : (s.writePath p n v).pc = s.pc := rfl
@[simp] theorem State.writePath_iset (p : AccessPath) (n : Fin 16) (v : Word) : (s.writePath p n v).iset = s.iset := rfl
@[simp] theorem State.writePath_text (p : AccessPath) (n : Fin 16) (v : Word) : (s.writePath p n v).text = s.text := rfl
@[simp] theorem State.writePath_schedule (p : AccessPath) (n : Fin 16) (v : Word) : (s.writePath p n v).schedule = s.schedule := rfl
@[simp] theorem State.writePath_report (p : AccessPath) (n : Fin 16) (v : Word) : (s.writePath p n v).report = s.report := rfl
@[simp] theorem State.writePath_draws (p : AccessPath) (n : Fin 16) (v : Word) : (s.writePath p n v).draws = s.draws := rfl

@[simp] theorem State.synchronise_cfg (n : Fin 16) : (s.synchronise n).cfg = s.cfg := rfl
@[simp] theorem State.synchronise_wcr (n : Fin 16) : (s.synchronise n).wcr = s.wcr.set n.val ⟨(s.wcrAt n).contents, []⟩ n.isLt := rfl
@[simp] theorem State.synchronise_wvr (n : Fin 16) : (s.synchronise n).wvr = s.wvr := rfl
@[simp] theorem State.synchronise_x (n : Fin 16) : (s.synchronise n).x = s.x := rfl
@[simp] theorem State.synchronise_inp (n : Fin 16) : (s.synchronise n).inp = s.inp := rfl
@[simp] theorem State.synchronise_pc (n : Fin 16) : (s.synchronise n).pc = s.pc := rfl
@[simp] theorem State.synchronise_iset (n : Fin 16) : (s.synchronise n).iset = s.iset := rfl
@[simp] theorem State.synchronise_text (n : Fin 16) : (s.synchronise n).text = s.text := rfl
@[simp] theorem State.synchronise_schedule (n : Fin 16) : (s.synchronise n).schedule = s.schedule := rfl
@[simp] theorem State.synchronise_report (n : Fin 16) : (s.synchronise n).report = s.report := rfl
@[simp] theorem State.synchronise_draws (n : Fin 16) : (s.synchronise n).draws = s.draws := rfl

end Sys2Proof.Machine
end

