-- ==== Sys2Proof/Laws/Ops.lean ====
section
/-! SUPPORT. What each shared operation does, said once: registers, storage, program text, gate, operand check; and what a
completed instruction or step can have been. -/

namespace Sys2Proof.Machine

/-! ### Registers and storage -/

@[simp] theorem tabulate_get {α : Type} (f : Fin 16 → α) (n : Fin 16) : (tabulate f).get n = f n := by
  fin_cases n <;> rfl

@[simp] theorem readX_writeX (s : State) (t u : Fin 15) (v : Word) :
    (s.writeX t v).readX u = if t = u then v else s.readX u := by
  simp [State.readX, State.writeX, Vector.get_eq_getElem, Vector.getElem_set, Fin.ext_iff]

@[simp] theorem wcrAt_setWcr (s : State) (n m : Fin 16) (r : Wcr) :
    (s.setWcr n r).wcrAt m = if n = m then r else s.wcrAt m := by
  simp [State.wcrAt, State.setWcr, Vector.get_eq_getElem, Vector.getElem_set, Fin.ext_iff]

@[simp] theorem wvrAt_setWvr (s : State) (n m : Fin 16) (w : Word) :
    (s.setWvr n w).wvrAt m = if n = m then w else s.wvrAt m := by
  simp [State.wvrAt, State.setWvr, Vector.get_eq_getElem, Vector.getElem_set, Fin.ext_iff]

@[simp] theorem wcrAt_writePath (s : State) (p : AccessPath) (n m : Fin 16) (v : Word) :
    (s.writePath p n v).wcrAt m =
      if n = m then ⟨.held (storeValue s.cfg v), (s.wcrAt n).stale ++ [(s.wcrAt n).contents]⟩ else s.wcrAt m := by
  simp [State.writePath]

@[simp] theorem wcrAt_synchronise (s : State) (n m : Fin 16) :
    (s.synchronise n).wcrAt m = if n = m then ⟨(s.wcrAt n).contents, []⟩ else s.wcrAt m := by
  simp [State.synchronise]

@[simp] theorem wcrAt_coldReset (s : State) (n : Fin 16) :
    s.coldReset.wcrAt n = if s.implemented n then ⟨.unknown, []⟩ else s.wcrAt n := by
  simp [State.wcrAt, State.coldReset]

@[simp] theorem wcrAt_writeX (s : State) (t : Fin 15) (v : Word) (n : Fin 16) :
    (s.writeX t v).wcrAt n = s.wcrAt n := rfl

@[simp] theorem wcrAt_usedDraws (s : State) (k : Nat) (n : Fin 16) : (s.usedDraws k).wcrAt n = s.wcrAt n := rfl

@[simp] theorem wcrAt_advance (s : State) (n : Fin 16) : s.advance.wcrAt n = s.wcrAt n := rfl

@[simp] theorem wcrAt_withSchedule (s : State) (es : List Event) (n : Fin 16) :
    (s.withSchedule es).wcrAt n = s.wcrAt n := rfl

@[simp] theorem wcrAt_withInputs (s : State) (i : Inputs) (n : Fin 16) : (s.withInputs i).wcrAt n = s.wcrAt n := rfl

@[simp] theorem wcrAt_present (s : State) (a : Access) (n : Fin 16) : (s.present a).wcrAt n = s.wcrAt n := rfl

@[simp] theorem readX_setWcr (s : State) (n : Fin 16) (r : Wcr) (t : Fin 15) : (s.setWcr n r).readX t = s.readX t := rfl

@[simp] theorem readX_writePath (s : State) (p : AccessPath) (n : Fin 16) (v : Word) (t : Fin 15) :
    (s.writePath p n v).readX t = s.readX t := rfl

@[simp] theorem implemented_withSchedule (s : State) (es : List Event) (n : Fin 16) :
    (s.withSchedule es).implemented n = s.implemented n := rfl

@[simp] theorem implemented_setWcr (s : State) (n m : Fin 16) (r : Wcr) :
    (s.setWcr n r).implemented m = s.implemented m := rfl

/-! ### The RES0 policy -/

@[simp] theorem storeValue_storeValue (cfg : Config) (v : Word) :
    storeValue cfg (storeValue cfg v) = storeValue cfg v := by
  unfold storeValue
  split <;> simp [BitVec.and_assoc]

theorem storeValue_res0 (cfg : Config) (v : Word) (h : cfg.res0IsStorage = false) :
    storeValue cfg v &&& res0Mask = 0 := by
  simp [storeValue, h, BitVec.and_assoc, rwMask, res0Mask]

theorem contentsValue_held (cfg : Config) (free v : Word) :
    contentsValue cfg free (.held v) = storeValue cfg v := rfl

theorem contentsValue_unknown (cfg : Config) (free : Word) :
    contentsValue cfg free .unknown = storeValue cfg free := rfl

/-! ### Reads -/

theorem readPath_held (p : AccessPath) (s : State) (n : Fin 16) (v : Word) (h : (s.wcrAt n).contents = .held v) :
    s.readPath p n = (storeValue s.cfg v, s) := by
  simp [State.readPath, h, contentsValue]

theorem readPath_unknown (p : AccessPath) (s : State) (n : Fin 16) (h : (s.wcrAt n).contents = .unknown) :
    s.readPath p n = (storeValue s.cfg (Config.freeWord s.draws), s.usedDraws 1) := by
  simp [State.readPath, h, contentsValue]

/-- A read changes nothing but the count of draws (R42). -/
theorem readPath_state (p : AccessPath) (s : State) (n : Fin 16) :
    ∃ k, (s.readPath p n).2 = s.usedDraws k := by
  cases h : (s.wcrAt n).contents with
  | unknown => exact ⟨1, by rw [readPath_unknown p s n h]⟩
  | held v => exact ⟨0, by rw [readPath_held p s n v h]; rfl⟩

/-! ### The program text -/

@[simp] theorem Memory.read_write (m : Memory) (i j : Nat) (w : Word) :
    (m.write i w).read j = if j = i then some w else m.read j := by
  induction m with
  | nil => simp [Memory.write, Memory.read]
  | cons e rest ih =>
    obtain ⟨a, v⟩ := e
    simp only [Memory.write]
    split
    · simp [Memory.read]
    · split
      · subst_vars
        simp only [Memory.read]
        split <;> rfl
      · simp only [Memory.read, ih]
        split
        · subst_vars
          simp [*, eq_comm]
        · rfl

theorem Memory.above_write (m : Memory) (lo i : Nat) (w : Word) (h : m.above lo = true) (hi : lo < i) :
    (m.write i w).above lo = true := by
  induction m generalizing lo with
  | nil => simp [Memory.write, Memory.above, hi]
  | cons e rest ih =>
    obtain ⟨a, v⟩ := e
    simp only [Memory.above, Bool.and_eq_true, decide_eq_true_eq] at h
    simp only [Memory.write]
    split
    · simp [Memory.above, *]
    · split
      · subst_vars
        simp [Memory.above, *]
      · simp [Memory.above, h.1, ih a h.2 (by omega)]

/-- Placing a word keeps the canonical form. -/
theorem Memory.write_wf (m : Memory) (i : Nat) (w : Word) (h : m.wf = true) : (m.write i w).wf = true := by
  cases m with
  | nil => rfl
  | cons e rest =>
    obtain ⟨a, v⟩ := e
    simp only [Memory.wf] at h
    simp only [Memory.write]
    split
    · simp [Memory.wf, Memory.above, *]
    · split
      · subst_vars
        exact h
      · exact Memory.above_write rest a i w h (by omega)

/-! ### Which executions are admitted, and which accesses proceed -/

theorem generalRegister_some (rt : Fin 16) (t : Fin 15) : generalRegister rt = some t ↔ rt.val = t.val := by
  unfold generalRegister
  split
  · simp [Fin.ext_iff]
  · have := t.isLt
    simp only [reduceCtorEq, false_iff]
    omega

/-- When `whenAdmitted` completes, `Rt` is a general register, the condition holds, and what it runs completes. -/
theorem whenAdmitted_next {c : Condition} {rt : Fin 16} {s u : State} {k : Fin 15 → Host.Outcome State Fault Refusal}
    (h : whenAdmitted c rt s k = .next u) :
    ∃ t, generalRegister rt = some t ∧ conditionVerdict c s.inp = .holds ∧ k t = .next u := by
  unfold whenAdmitted at h
  cases hg : generalRegister rt with
  | none => simp [hg] at h
  | some t =>
    cases hc : conditionVerdict c s.inp with
    | holds => exact ⟨t, rfl, rfl, by simpa [hg, hc] using h⟩
    | fails => simp [hg, hc] at h
    | reserved => simp [hg, hc] at h

/-- An admitted execution runs its access. -/
theorem whenAdmitted_holds {c : Condition} {rt : Fin 16} {s : State} {t : Fin 15} (k : Fin 15 → Host.Outcome State Fault Refusal)
    (ht : generalRegister rt = some t) (hc : conditionVerdict c s.inp = .holds) : whenAdmitted c rt s k = k t := by
  simp [whenAdmitted, ht, hc]

/-- The gate lets an access proceed exactly for an implemented watchpoint and a check that proceeds. -/
theorem gate_proceed_iff (s : State) (n : Fin 16) :
    s.gate n = .proceed ↔ s.implemented n = true ∧ accessCheck s.cfg.haveEL3 s.inp = .proceed := by
  unfold State.gate gateChoice
  cases s.implemented n <;> cases accessCheck s.cfg.haveEL3 s.inp <;> simp
  split <;> simp

/-- What the gate raises is what the access check raises, or `Undefined` (R63). -/
theorem gate_raises {s : State} {n : Fin 16} {f : Fault} (h : s.gate n = .raises f) :
    accessCheck s.cfg.haveEL3 s.inp = .raises f ∨ (f = .undefined ∧ s.implemented n = false) := by
  revert h
  unfold State.gate gateChoice
  cases s.implemented n <;> cases accessCheck s.cfg.haveEL3 s.inp <;> simp
  · exact fun h => h.symm
  · split <;> simp
    · exact fun h => .inr h.symm
    · exact fun h => .inl h

/-- For an implemented watchpoint the gate is the access check. -/
theorem gate_implemented {s : State} {n : Fin 16} (h : s.implemented n = true) :
    s.gate n = accessCheck s.cfg.haveEL3 s.inp := by
  simp [State.gate, gateChoice, h]

/-- The gate's result is a member of `Gate(n)` (R63). -/
theorem gateChoice_mem (b impl : Bool) (o : Check) : gateChoice b impl o ∈ gateMembers impl o := by
  cases impl <;> cases o <;> simp [gateChoice, gateMembers]
  rename_i f
  cases b <;> cases f <;> simp

/-- Every member of `Gate(n)` is the result for one of the two orders (R63). -/
theorem gateMembers_reached (impl : Bool) (o g : Check) (h : g ∈ gateMembers impl o) :
    ∃ b, gateChoice b impl o = g := by
  cases impl <;> cases o <;> simp [gateMembers] at h
  · exact ⟨true, by simp [gateChoice, h]⟩
  · rename_i f
    cases f <;> simp at h
    · exact ⟨true, by simp [gateChoice, h]⟩
    all_goals
      rcases h with h | h
      · exact ⟨true, by simp [gateChoice, h]⟩
      · exact ⟨false, by simp [gateChoice, h]⟩
  · exact ⟨true, by simp [gateChoice, h]⟩
  · exact ⟨true, by simp [gateChoice, h]⟩

theorem throughGate_next {s u : State} {n : Fin 16} {k : Host.Outcome State Fault Refusal}
    (h : throughGate s n k = .next u) : s.gate n = .proceed ∧ k = .next u := by
  unfold throughGate at h
  cases hg : s.gate n with
  | proceed => exact ⟨rfl, by simpa [hg] using h⟩
  | raises o => simp [hg, raise] at h

/-- Where a condition comes from. -/
def conditionOf : Instr → Condition
  | .mrcA32 cond _ _ => .field cond
  | .mcrA32 cond _ _ => .field cond
  | .mrcT32 _ _ => .itBlock
  | .mcrT32 _ _ => .itBlock

/-- Every instruction is the read or the write access on its operands. -/
theorem exec_eq (i : Instr) (s : State) :
    exec i s = if i.isRead then readAccess (conditionOf i) i.rt i.crm s
      else writeAccess (conditionOf i) i.rt i.crm s := by
  cases i <;> rfl

/-- Everything a completed instruction can have done. -/
theorem exec_next {i : Instr} {s u : State} (h : exec i s = .next u) :
    ∃ t, generalRegister i.rt = some t ∧ conditionVerdict (conditionOf i) s.inp = .holds ∧ s.gate i.crm = .proceed ∧
      ((i.isRead = true ∧ u = (s.readPath .aarch32 i.crm).2.writeX t (s.readPath .aarch32 i.crm).1) ∨
       (i.isRead = false ∧ u = s.writePath .aarch32 i.crm (s.readX t))) := by
  rw [exec_eq] at h
  cases hr : i.isRead <;> simp only [hr, Bool.false_eq_true, if_false, if_true] at h
  · obtain ⟨t, ht, hc, hk⟩ := whenAdmitted_next h
    obtain ⟨hg, hk⟩ := throughGate_next hk
    exact ⟨t, ht, hc, hg, .inr ⟨rfl, by cases hk; rfl⟩⟩
  · obtain ⟨t, ht, hc, hk⟩ := whenAdmitted_next h
    obtain ⟨hg, hk⟩ := throughGate_next hk
    exact ⟨t, ht, hc, hg, .inl ⟨rfl, by cases hk; rfl⟩⟩

/-- What an instruction does once it is admitted and its gate proceeds. -/
theorem exec_proceeds {i : Instr} {s : State} {t : Fin 15} (ht : generalRegister i.rt = some t)
    (hc : conditionVerdict (conditionOf i) s.inp = .holds) (hg : s.gate i.crm = .proceed) :
    exec i s = .next (if i.isRead then (s.readPath .aarch32 i.crm).2.writeX t (s.readPath .aarch32 i.crm).1
      else s.writePath .aarch32 i.crm (s.readX t)) := by
  rw [exec_eq]
  split <;> simp [readAccess, writeAccess, whenAdmitted_holds _ ht hc, throughGate, hg]

/-- What an instruction reports once it is admitted and its gate raises an outcome. -/
theorem exec_raises {i : Instr} {s : State} {t : Fin 15} {o : Fault} (ht : generalRegister i.rt = some t)
    (hc : conditionVerdict (conditionOf i) s.inp = .holds) (hg : s.gate i.crm = .raises o) :
    exec i s = .fault o := by
  rw [exec_eq]
  split <;> simp [readAccess, writeAccess, whenAdmitted_holds _ ht hc, throughGate, hg, raise]

/-- The three ways an instruction ends. -/
theorem exec_cases (i : Instr) (s : State) :
    (∃ t, generalRegister i.rt = some t ∧ conditionVerdict (conditionOf i) s.inp = .holds) ∨
      (∃ r, exec i s = .refused r) := by
  rw [exec_eq]
  cases hg : generalRegister i.rt with
  | none => exact .inr ⟨.rtIsPC, by split <;> simp [readAccess, writeAccess, whenAdmitted, hg]⟩
  | some t =>
    cases hc : conditionVerdict (conditionOf i) s.inp with
    | holds => exact .inl ⟨t, rfl, rfl⟩
    | fails => exact .inr ⟨.conditionFailed, by split <;> simp [readAccess, writeAccess, whenAdmitted, hg, hc]⟩
    | reserved => exact .inr ⟨.conditionReserved, by split <;> simp [readAccess, writeAccess, whenAdmitted, hg, hc]⟩

/-! ### Steps -/

/-- What a completed instruction step was. -/
theorem runInstruction_next {s u : State} (h : runInstruction s = .next u) :
    ∃ w i t, s.fetch = some w ∧ decode s.iset w = .instr i ∧ exec i s = .next t ∧ u = t.advance := by
  unfold runInstruction at h
  cases hf : s.fetch with
  | none => simp [hf] at h
  | some w =>
    cases hd : decode s.iset w with
    | reject e => simp [hf, hd] at h
    | instr i =>
      cases he : exec i s with
      | next t => exact ⟨w, i, t, rfl, hd, he, by simpa [hf, hd, he, continueAfter, eq_comm] using h⟩
      | fault f => simp [hf, hd, he, continueAfter] at h
      | refused r => simp [hf, hd, he, continueAfter] at h

/-- Everything a completed step can have been: an instruction, or an event of the environment. -/
theorem step_next {s u : State} (h : step s = .next u) :
    (∃ s₀ w i t, ((s.schedule = [] ∧ s₀ = s) ∨ ∃ rest, s.schedule = .execute :: rest ∧ s₀ = s.withSchedule rest) ∧ s₀.fetch = some w ∧
      decode s₀.iset w = .instr i ∧ exec i s₀ = .next t ∧ u = t.advance) ∨
    (∃ e rest, s.schedule = e :: rest ∧ e ≠ .execute ∧ runEvent e (s.withSchedule rest) = .next u) := by
  unfold step at h
  cases hs : s.schedule with
  | nil =>
    obtain ⟨w, i, t, hf, hd, he, hu⟩ := runInstruction_next (by simpa [hs] using h)
    exact .inl ⟨s, w, i, t, .inl ⟨rfl, rfl⟩, hf, hd, he, hu⟩
  | cons e rest =>
    have h' : runEvent e (s.withSchedule rest) = .next u := by simpa [hs] using h
    by_cases he : e = .execute
    · subst he
      obtain ⟨w, i, t, hf, hd, he, hu⟩ := runInstruction_next h'
      exact .inl ⟨s.withSchedule rest, w, i, t, .inr ⟨rest, rfl, rfl⟩, hf, hd, he, hu⟩
    · exact .inr ⟨e, rest, rfl, he, h'⟩

theorem otherWrite_next {path : OtherPath} {n : Fin 16} {v : Word} {s u : State} (h : otherWrite path n v s = .next u) :
    s.cfg.otherWriters = true ∧ s.implemented n = true ∧ u = s.writePath path.toPath n v := by
  unfold otherWrite at h
  split at h
  · split at h
    · simp_all
    · simp at h
  · simp at h

/-! ### Matching -/

theorem evaluate_unimplemented (s : State) (a : Access) (k : Nat) (n : Fin 16) (h : s.implemented n = false) :
    s.evaluate a k n = .noMatch := by
  simp [State.evaluate, h]

theorem governing_mem (r : Wcr) (k : Nat) : r.governing k ∈ r.candidates := by
  have h : k % r.candidates.length < r.candidates.length := Nat.mod_lt _ (by simp [Wcr.candidates])
  simp [Wcr.governing, List.getD_eq_getElem?_getD, List.getElem?_eq_getElem h]

theorem governing_synchronised (r : Wcr) (k : Nat) (h : r.stale = []) : r.governing k = r.contents := by
  simp [Wcr.governing, Wcr.candidates, h, Nat.mod_one]

theorem mem_eventsOn (s : State) (a : Access) (n : Fin 16) :
    n ∈ s.eventsOn a ↔ s.verdictOn a n ≠ .noMatch ∧ Config.eventTaken (s.draws + n.val) = true := by
  simp [State.eventsOn]

@[simp] theorem reportOn_verdict (s : State) (a : Access) (n : Fin 16) :
    (s.reportOn a).verdicts.get n = s.verdictOn a n := by
  simp [State.reportOn]

end Sys2Proof.Machine
end

