-- ==== Sys2Proof/Laws/Match.lean ====
section
/-! SUPPORT. What the match predicate answers, said once: when it is true, when it is refused, and that it reads the RW
fields alone; and the address tests as arithmetic. -/

namespace Sys2Proof.Machine

/-- The tests of R78 before the conjunction, as one condition. -/
def enabledFor (c : Word) (a : Access) : Prop :=
  eOf c ≠ 0#1 ∧ lscOf c ≠ 0b00#2 ∧ typeMatch (lscOf c) a.kind = true

theorem matchVerdict_not_enabled {p : MatchParams} {c w : Word} {a : Access} (h : ¬ enabledFor c a) :
    matchVerdict p c w a = .noMatch := by
  unfold matchVerdict
  split
  · rfl
  · split
    · rfl
    · split
      · exact absurd ⟨‹_›, ‹_›, ‹_›⟩ h
      · rfl

theorem matchVerdict_enabled {p : MatchParams} {c w : Word} {a : Access} (h : enabledFor c a) :
    matchVerdict p c w a = match effectiveMask p.reservedMask (maskOf c) with
      | none => .noMatch
      | some m => conjunction p m c w a :=
  (if_neg h.1).trans ((if_neg h.2.1).trans (if_pos h.2.2))

theorem conjunction_matched_iff (p : MatchParams) (m : Nat) (c w : Word) (a : Access) :
    conjunction p m c w a = .matched ↔
      addrRefusals m (basOf c) w = [] ∧ stateVerdict p c a.context = .yes ∧ linkVerdict p c a.context = .yes ∧
      addrMatch m (basOf c) w a.bytes = true := by
  unfold conjunction paramRefusals
  cases stateVerdict p c a.context <;> cases linkVerdict p c a.context <;>
    cases addrMatch m (basOf c) w a.bytes <;> cases addrRefusals m (basOf c) w <;> simp

theorem conjunction_refused_iff (p : MatchParams) (m : Nat) (c w : Word) (a : Access) (rs : List MatchRefusal) :
    conjunction p m c w a = .refused rs ↔
      addrRefusals m (basOf c) w ++ paramRefusals p c a.context = rs ∧ rs ≠ [] := by
  unfold conjunction
  cases h : addrRefusals m (basOf c) w ++ paramRefusals p c a.context with
  | nil =>
    simp only [List.isEmpty_nil, if_true]
    split <;> simp
  | cons r rest =>
    simp only [List.isEmpty_cons, Bool.false_eq_true, if_false, MatchVerdict.refused.injEq]
    constructor
    · rintro rfl
      simp
    · exact fun h => h.1

/-- What a match needs (R78). -/
theorem matchVerdict_matched {p : MatchParams} {c w : Word} {a : Access} (h : matchVerdict p c w a = .matched) :
    enabledFor c a ∧ ∃ m, effectiveMask p.reservedMask (maskOf c) = some m ∧ conjunction p m c w a = .matched := by
  by_cases he : enabledFor c a
  · rw [matchVerdict_enabled he] at h
    cases hm : effectiveMask p.reservedMask (maskOf c) with
    | none => simp [hm] at h
    | some m => exact ⟨he, m, rfl, by simpa [hm] using h⟩
  · rw [matchVerdict_not_enabled he] at h
    cases h

/-- The value of `effectiveMask` is 0 or one of 3..31 (R13, R14). -/
theorem effectiveMask_range {choice : ReservedMaskAs} {mask : BitVec 5} {m : Nat}
    (h : effectiveMask choice mask = some m) : m = 0 ∨ (3 ≤ m ∧ m ≤ 31) := by
  unfold effectiveMask at h
  split at h
  · cases choice with
    | disabled => simp at h
    | unmasked => simp at h; omega
    | masked k => simp at h; omega
  · have := mask.isLt
    simp at h
    omega

theorem addrMask_toNat {m : Nat} (h : m ≤ 31) : (addrMask m).toNat = 2 ^ m - 1 := by
  interval_cases m <;> rfl

theorem addrMask_getLsbD {m : Nat} (h : m ≤ 31) (j : Nat) : (addrMask m).getLsbD j = decide (j < m) := by
  rw [BitVec.getLsbD, addrMask_toNat h, Nat.testBit_two_pow_sub_one]

/-- The masked comparison is equality of the blocks of 2^m bytes (R80). -/
theorem inBlock_iff {m : Nat} (h : m ≤ 31) (w a : Word) :
    inBlock m w a = true ↔ a.toNat / 2 ^ m = w.toNat / 2 ^ m := by
  have key : inBlock m w a = true ↔ ∀ j, m ≤ j → a.getLsbD j = w.getLsbD j := by
    simp only [inBlock, beq_iff_eq]
    constructor
    · intro e j hj
      have := congrArg (fun v => BitVec.getLsbD v j) e
      by_cases hj' : j < 32
      · simp only [BitVec.getLsbD_and, BitVec.getLsbD_not, addrMask_getLsbD h] at this
        simpa [hj', Nat.not_lt.2 hj] using this
      · simp [BitVec.getLsbD_of_ge _ _ (Nat.not_lt.1 hj')]
    · intro e
      apply BitVec.eq_of_getLsbD_eq
      intro j hj
      simp only [BitVec.getLsbD_and, BitVec.getLsbD_not, addrMask_getLsbD h, hj, decide_true, Bool.true_and]
      by_cases hjm : j < m
      · simp [hjm]
      · simp [hjm, e j (Nat.not_lt.1 hjm)]
  rw [key]
  constructor
  · intro e
    apply Nat.eq_of_testBit_eq
    intro j
    rw [Nat.testBit_div_two_pow, Nat.testBit_div_two_pow]
    exact e (j + m) (by omega)
  · intro e j hj
    have := congrArg (fun v => Nat.testBit v (j - m)) e
    simp only [Nat.testBit_div_two_pow] at this
    rw [Nat.sub_add_cancel hj] at this
    exact this

/-- The masked bits of the value register are zero exactly when it is a multiple of the block's size. -/
theorem and_addrMask_eq_zero_iff {m : Nat} (h : m ≤ 31) (w : Word) :
    w &&& addrMask m = 0 ↔ w.toNat % 2 ^ m = 0 := by
  rw [← BitVec.toNat_inj, BitVec.toNat_and, addrMask_toNat h, Nat.and_two_pow_sub_one_eq_mod]
  simp

theorem low_bits_eq_zero_iff (w : Word) : w.extractLsb' 0 2 = 0#2 ↔ w.toNat % 4 = 0 := by
  rw [← BitVec.toNat_inj]
  simp [BitVec.extractLsb'_toNat]

/-- The refusals of the address match, as arithmetic (R79, R80). -/
theorem addrRefusals_eq_nil_iff {m : Nat} (h : m ≤ 31) (bas : BitVec 8) (w : Word) :
    addrRefusals m bas w = [] ↔
      w.toNat % 4 = 0 ∧ basValid bas = true ∧ (m = 0 ∨ (bas = 0xFF#8 ∧ w.toNat % 2 ^ m = 0)) := by
  rw [← low_bits_eq_zero_iff, ← and_addrMask_eq_zero_iff h]
  unfold addrRefusals
  split <;> split <;> split <;> simp_all

/-- The watched bytes (R79). -/
theorem watches_iff (bas : BitVec 8) (w a : Word) :
    watches bas w a = true ↔
      ∃ k, k < (if w.getLsbD 2 then 4 else 8) ∧ bas.getLsbD k = true ∧ a = w + BitVec.ofNat 32 k := by
  unfold watches watchedOffsets
  cases w.getLsbD 2
  · simp only [Bool.false_eq_true, if_false, List.any_eq_true, Bool.and_eq_true, beq_iff_eq]
    constructor
    · rintro ⟨k, hk, hb, ha⟩
      exact ⟨k, by fin_cases hk <;> decide, hb, ha⟩
    · rintro ⟨k, hk, hb, ha⟩
      exact ⟨k, by interval_cases k <;> decide, hb, ha⟩
  · simp only [if_true, List.any_eq_true, Bool.and_eq_true, beq_iff_eq]
    constructor
    · rintro ⟨k, hk, hb, ha⟩
      exact ⟨k, by fin_cases hk <;> decide, hb, ha⟩
    · rintro ⟨k, hk, hb, ha⟩
      exact ⟨k, by interval_cases k <;> decide, hb, ha⟩

/-- A bit of the RW mask. -/
theorem getLsbD_rw_and (c : Word) {j : Nat} (h : rwMask.getLsbD j = true) :
    (c &&& rwMask).getLsbD j = c.getLsbD j := by
  simp [h]

/-- A field of a word, cut out of the RW bits, is cut out of the word: no field holds a RES0 bit (R11). -/
theorem rw_fields (c : Word) :
    maskOf (c &&& rwMask) = maskOf c ∧ wtOf (c &&& rwMask) = wtOf c ∧ lbnOf (c &&& rwMask) = lbnOf c ∧
      sscOf (c &&& rwMask) = sscOf c ∧ hmcOf (c &&& rwMask) = hmcOf c ∧ basOf (c &&& rwMask) = basOf c ∧
      lscOf (c &&& rwMask) = lscOf c ∧ pacOf (c &&& rwMask) = pacOf c ∧ eOf (c &&& rwMask) = eOf c := by
  refine ⟨?_, ?_, ?_, ?_, ?_, ?_, ?_, ?_, ?_⟩ <;>
    (apply BitVec.eq_of_getLsbD_eq
     intro j hj
     simp only [maskOf, wtOf, lbnOf, sscOf, hmcOf, basOf, lscOf, pacOf, eOf, BitVec.getLsbD_extractLsb']
     congr 1
     apply getLsbD_rw_and
     interval_cases j <;> decide)

theorem conjunction_rw (p : MatchParams) (m : Nat) (c w : Word) (a : Access) :
    conjunction p m (c &&& rwMask) w a = conjunction p m c w a := by
  obtain ⟨-, h2, h3, h4, h5, h6, -, h8, -⟩ := rw_fields c
  have hs : stateVerdict p (c &&& rwMask) a.context = stateVerdict p c a.context := by
    rw [stateVerdict, h4, h5, h8, stateVerdict]
  have hl : linkVerdict p (c &&& rwMask) a.context = linkVerdict p c a.context := by
    rw [linkVerdict, h2, h3, linkVerdict]
  unfold conjunction paramRefusals
  rw [h6, hs, hl]

/-- Matching reads the RW fields alone (R12, R16). -/
theorem matchVerdict_rw (p : MatchParams) (c w : Word) (a : Access) :
    matchVerdict p (c &&& rwMask) w a = matchVerdict p c w a := by
  obtain ⟨h1, -, -, -, -, -, h7, -, h9⟩ := rw_fields c
  unfold matchVerdict
  rw [h1, h7, h9]
  simp only [conjunction_rw]

/-- Matching sees a stored value as it was written. -/
@[simp] theorem matchVerdict_storeValue (p : MatchParams) (cfg : Config) (c w : Word) (a : Access) :
    matchVerdict p (storeValue cfg c) w a = matchVerdict p c w a := by
  unfold storeValue
  split
  · rfl
  · exact matchVerdict_rw p c w a

end Sys2Proof.Machine
end

