-- ==== Sys2Proof/Laws/PerInstr.lean ====
section
/-! SUPPORT. A statement made for every instruction: its word carries the selector of rule R52 and its operands. -/

namespace Sys2Proof.Laws.Selector

/-- The word of the instruction is an MRC or MCR with the field values of R52, and carries its direction and operands. -/
def Statement (i : Instr) : Prop :=
  selectorError (fieldsOf (encode i)) = none ∧ (fieldsOf (encode i)).prefix4 = 0b1110#4 ∧
    (fieldsOf (encode i)).bit4 = true ∧ (fieldsOf (encode i)).read = i.isRead

/-- One bit of a word that `layout` makes, found by walking the concatenation of R54. -/
theorem layout_bit (cond : BitVec 4) (read : BitVec 1) (rt crm : Fin 16) (j : Nat) :
    (layout cond read rt crm).getLsbD j =
      (cond ++ 0b1110#4 ++ 0b000#3 ++ read ++ 0b0000#4 ++ regBits rt ++ 0b1110#4 ++ 0b111#3 ++ 1#1 ++ regBits crm).getLsbD j :=
  rfl

theorem layout_fields (cond : BitVec 4) (read : BitVec 1) (rt crm : Fin 16) :
    fieldsOf (layout cond read rt crm) =
      { cond := cond, prefix4 := 0b1110#4, opc1 := 0b000#3, read := read.getLsbD 0, crn := 0b0000#4,
        rt := regBits rt, coproc := 0b1110#4, opc2 := 0b111#3, bit4 := true, crm := regBits crm } := by
  unfold fieldsOf
  congr 1
  all_goals first
    | (apply BitVec.eq_of_getLsbD_eq
       intro j hj
       rw [BitVec.getLsbD_extractLsb', layout_bit]
       interval_cases j <;> simp only [BitVec.getLsbD_append] <;> simp)
    | (rw [layout_bit]; simp only [BitVec.getLsbD_append]; simp)

theorem mrcA32 (cond : BitVec 4) (rt crm : Fin 16) : Statement (.mrcA32 cond rt crm) := by
  simp [Statement, encode, layout_fields, selectorError, Instr.isRead]

theorem mcrA32 (cond : BitVec 4) (rt crm : Fin 16) : Statement (.mcrA32 cond rt crm) := by
  simp [Statement, encode, layout_fields, selectorError, Instr.isRead]

theorem mrcT32 (rt crm : Fin 16) : Statement (.mrcT32 rt crm) := by
  simp [Statement, encode, layout_fields, selectorError, Instr.isRead]

theorem mcrT32 (rt crm : Fin 16) : Statement (.mcrT32 rt crm) := by
  simp [Statement, encode, layout_fields, selectorError, Instr.isRead]

end Sys2Proof.Laws.Selector
end

