-- ==== Sys2Proof/Tests/Slice0.lean ====
section
/-! SUPPORT. Tests whose expected results are those of spec/95_test_vectors.md (its ids in the names), the smoke test of
WellFormed, and for every statement with hypotheses a witness that meets them. -/

namespace Sys2Proof.Tests

open Sys2Proof.Machine Sys2Proof.Claims

/-! ### Well-formedness refuses each ill-formed operand -/

theorem test_wf_refuses_cond15 : Instr.wellFormed (.mrcA32 0b1111#4 0 0) = false := by decide
theorem test_wf_refuses_cond15_write : Instr.wellFormed (.mcrA32 0b1111#4 0 0) = false := by decide
theorem test_wf_refuses_rt15 : Instr.wellFormed (.mcrT32 15 0) = false := by decide
theorem test_wf_refuses_rt15_a32 : Instr.wellFormed (.mrcA32 0b1110#4 15 0) = false := by decide
theorem test_wf_accepts : Instr.wellFormed (.mrcT32 14 15) = true := by decide

/-! ### Decoding: words written out from R54 and R55, field by field -/

theorem test_decode_mrcA32 :
    decode .a32 (0b1110#4 ++ 0b1110#4 ++ 0b000#3 ++ 1#1 ++ 0b0000#4 ++ 0b0010#4 ++ 0b1110#4 ++ 0b111#3 ++ 1#1 ++ 0b0101#4)
      = .instr (.mrcA32 0b1110#4 2 5) := by decide
theorem test_decode_mcrA32 :
    decode .a32 (0b0001#4 ++ 0b1110#4 ++ 0b000#3 ++ 0#1 ++ 0b0000#4 ++ 0b0011#4 ++ 0b1110#4 ++ 0b111#3 ++ 1#1 ++ 0b1111#4)
      = .instr (.mcrA32 0b0001#4 3 15) := by decide
theorem test_decode_mrcT32 :
    decode .t32 ((0b1110#4 ++ 0b1110#4 ++ 0b000#3 ++ 1#1 ++ 0b0000#4) ++ (0b1100#4 ++ 0b1110#4 ++ 0b111#3 ++ 1#1 ++ 0b1111#4))
      = .instr (.mrcT32 12 15) := by decide
theorem test_decode_mcrT32 :
    decode .t32 ((0b1110#4 ++ 0b1110#4 ++ 0b000#3 ++ 0#1 ++ 0b0000#4) ++ (0b0101#4 ++ 0b1110#4 ++ 0b111#3 ++ 1#1 ++ 0b0010#4))
      = .instr (.mcrT32 5 2) := by decide
/-- The words of 2.5. -/
theorem test_words_2_5 :
    [encode (.mrcA32 14#4 0 0), encode (.mrcA32 14#4 2 5), encode (.mrcA32 14#4 12 15), encode (.mrcT32 14 7),
     encode (.mcrA32 14#4 0 0), encode (.mcrA32 14#4 1 0), encode (.mcrT32 3 15), encode (.mcrT32 5 2),
     encode (.mrcA32 0#4 0 0), encode (.mcrA32 1#4 0 0)]
    = [0xEE100EF0#32, 0xEE102EF5#32, 0xEE10CEFF#32, 0xEE10EEF7#32, 0xEE000EF0#32, 0xEE001EF0#32, 0xEE003EFF#32,
       0xEE005EF2#32, 0x0E100EF0#32, 0x1E000EF0#32] := by decide
theorem test_near_misses_t32 :
    [decode .t32 0xEE100ED0#32, decode .t32 0xEE110EF0#32, decode .t32 0xEE300EF0#32, decode .t32 0xEE100FF0#32,
     decode .t32 0xEE100EE0#32, decode .t32 0x0E100EF0#32]
    = [.reject .otherOpc2, .reject .otherCRn, .reject .otherOpc1, .reject .otherCoprocessor,
       .reject .notRegisterTransfer, .reject .notRegisterTransfer] := by decide
/-- The four rows of the opcode table, by their match words. -/
theorem test_table_rows :
    [decodeTableWord 32 0x0E100EF0, decodeTableWord 32 0x0E000EF0, decodeTableWord 32 0xEE100EF0, decodeTableWord 32 0xEE000EF0]
    = [some (.mrcA32 0#4 0 0), some (.mcrA32 0#4 0 0), some (.mrcT32 0 0), some (.mcrT32 0 0)] := by decide

/-! ### Fields (2.1), BAS validity (2.6), write then read (2.2) -/

theorem test_pack_2_1 :
    [pack 0 0 0 0 0 0 0 0x01 1 2 1, pack 0 12 0 0 0 0 0 0xFF 1 1 1, pack 0 3 0 1 4 2 1 0x0C 2 2 1,
     pack 0 18 1 1 4 1 0 0xB3 3 0 0, pack 6 30 5 0 13 2 1 0xF7 1 3 1, pack 7 0 7 0 0 0 0 0 0 0 0]
    = [0x0000002D#32, 0x0C001FEB#32, 0x0314A195#32, 0x12345678#32, 0xDEADBEEF#32, 0xE0E00000#32] := by decide
theorem test_unpack_2_1 :
    (r31Of 0xDEADBEEF#32, maskOf 0xDEADBEEF#32, r23Of 0xDEADBEEF#32, wtOf 0xDEADBEEF#32, lbnOf 0xDEADBEEF#32,
      sscOf 0xDEADBEEF#32, hmcOf 0xDEADBEEF#32, basOf 0xDEADBEEF#32, lscOf 0xDEADBEEF#32, pacOf 0xDEADBEEF#32,
      eOf 0xDEADBEEF#32) = (6, 30, 5, 0, 13, 2, 1, 0xF7, 1, 3, 1) := by decide
theorem test_bas_2_6 :
    (List.range 256).filter (fun b => basValid (BitVec.ofNat 8 b)) =
      [0x01, 0x02, 0x03, 0x04, 0x06, 0x07, 0x08, 0x0C, 0x0E, 0x0F, 0x10, 0x18, 0x1C, 0x1E, 0x1F, 0x20, 0x30, 0x38] ++
      [0x3C, 0x3E, 0x3F, 0x40, 0x60, 0x70, 0x78, 0x7C, 0x7E, 0x7F, 0x80, 0xC0, 0xE0, 0xF0, 0xF8, 0xFC, 0xFE, 0xFF] := by
  decide +kernel
theorem test_mask_values : (addrMask 3, addrMask 12, addrMask 31) = (0x7#32, 0xFFF#32, 0x7FFFFFFF#32) := by decide

/-- A configuration: watchpoints 0 to 3 implemented (spec/95_test_vectors.md section 3). -/
def cfg (haveEL3 res0 : Bool) : Config where
  wpImpl        := Vector.replicate 4 true ++ Vector.replicate 12 false
  haveEL3       := haveEL3
  res0IsStorage := res0
  otherWriters  := false

theorem test_store_2_2_not_storage :
    [0xFFFFFFFF#32, 0xE0E00000#32, 0xDEADBEEF#32, 0x01001FFF#32, 0x00001FE7#32].map (storeValue (cfg false false))
    = [0x1F1FFFFF#32, 0#32, 0x1E0DBEEF#32, 0x01001FFF#32, 0x00001FE7#32] := by decide
theorem test_store_2_2_storage :
    [0xFFFFFFFF#32, 0xE0E00000#32, 0xDEADBEEF#32, 0x01001FFF#32].map (storeValue (cfg false true))
    = [0xFFFFFFFF#32, 0xE0E00000#32, 0xDEADBEEF#32, 0x01001FFF#32] := by decide

/-! ### The access check (2.3) and the gate (2.4) -/

/-- A row of 2.3, its columns in the table's order: E2 2A M2E M2A HE HA H3 3A M3A 1A OSLK HAL EDA. -/
def inputsOf (el : EL) (l : List Nat) : Inputs :=
  let b := fun k => l.getD k 0 == 1
  { el := el, el2Enabled := b 0, el2A32 := b 1, mdcrEl2Tde := b 2, mdcrEl2Tda := b 3, hdcrTde := b 4, hdcrTda := b 5,
    el3A32 := b 7, mdcrEl3Tda := b 8, el1A32 := b 9, oslk := b 10, haltingAllowed := b 11, edscrTda := b 12,
    conditionPassed := true }

def checkRow (el : EL) (l : List Nat) : Check := accessCheck (l.getD 6 0 == 1) (inputsOf el l)

theorem test_check_A1_A10 :
    [checkRow .el0 [0,0,0,0,0,0,0,0,0,1,1,0,0], checkRow .el0 [1,0,0,1,0,0,1,0,1,1,0,1,1],
     checkRow .el1 [0,0,0,0,0,0,0,0,0,1,1,0,0], checkRow .el1 [1,0,1,0,0,0,0,0,0,1,1,0,0],
     checkRow .el1 [1,0,0,1,0,0,0,0,0,1,1,0,0], checkRow .el1 [1,0,1,1,0,0,1,0,1,1,0,1,1],
     checkRow .el1 [0,0,1,1,0,0,0,0,0,1,1,0,0], checkRow .el1 [1,1,1,1,0,0,0,0,0,1,1,0,0],
     checkRow .el1 [1,1,0,0,1,0,0,0,0,1,1,0,0], checkRow .el1 [1,1,0,0,0,1,1,0,1,1,1,0,0]]
    = [.raises .undefined, .raises .undefined, .proceed, .raises (.sysTrapEL2 5), .raises (.sysTrapEL2 5),
       .raises (.sysTrapEL2 5), .proceed, .proceed, .raises (.hypTrap 5), .raises (.hypTrap 5)] := by decide
theorem test_check_A11_A20 :
    [checkRow .el1 [1,0,0,0,1,1,0,0,0,1,1,0,0], checkRow .el1 [0,0,0,0,0,0,1,0,1,1,1,0,0],
     checkRow .el1 [0,0,0,0,0,0,1,1,1,1,1,0,0], checkRow .el1 [0,0,0,0,0,0,0,0,1,1,1,0,0],
     checkRow .el1 [0,0,0,0,0,0,1,0,1,1,0,1,1], checkRow .el1 [0,0,0,0,0,0,0,0,0,1,0,1,1],
     checkRow .el1 [0,0,0,0,0,0,0,0,0,1,1,1,1], checkRow .el1 [0,0,0,0,0,0,0,0,0,1,0,0,1],
     checkRow .el1 [0,0,0,0,0,0,0,0,0,1,0,1,0], checkRow .el1 [0,0,0,0,0,0,0,0,0,0,0,1,1]]
    = [.proceed, .raises (.sysTrapEL3 5), .proceed, .proceed, .raises (.sysTrapEL3 5), .raises .haltSoftwareAccess,
       .proceed, .proceed, .proceed, .proceed] := by decide
theorem test_check_A21_A30 :
    [checkRow .el2 [1,1,0,0,1,1,0,0,0,1,1,0,0], checkRow .el2 [1,0,1,1,0,0,0,0,0,1,1,0,0],
     checkRow .el2 [0,0,0,0,0,0,1,0,1,1,1,0,0], checkRow .el2 [0,0,0,0,0,0,1,0,1,1,0,1,1],
     checkRow .el2 [0,0,0,0,0,0,1,1,1,1,0,1,1], checkRow .el2 [0,0,0,0,0,0,0,0,0,1,1,0,0],
     checkRow .el3 [0,0,0,0,0,0,1,0,1,1,1,0,0], checkRow .el3 [0,0,0,0,0,0,1,1,0,1,0,1,1],
     checkRow .el3 [0,0,0,0,0,0,1,1,0,0,0,1,1], checkRow .el3 [1,0,0,1,0,1,1,0,0,1,1,0,0]]
    = [.proceed, .proceed, .raises (.sysTrapEL3 5), .raises (.sysTrapEL3 5), .raises .haltSoftwareAccess, .proceed,
       .proceed, .raises .haltSoftwareAccess, .proceed, .proceed] := by decide
theorem test_gate_2_4 :
    [gateMembers false (.raises .undefined), gateMembers false .proceed, gateMembers false (.raises (.sysTrapEL2 5)),
     gateMembers false (.raises .haltSoftwareAccess)]
    = [[.raises .undefined], [.raises .undefined], [.raises .undefined, .raises (.sysTrapEL2 5)],
       [.raises .undefined, .raises .haltSoftwareAccess]] := by decide

/-! ### Matching (2.7) -/

def ctx : Context := ⟨0, .el1, []⟩

/-- An access to `len` bytes from `addr`. -/
def span (kind : AccessKind) (addr : Word) (len : Nat) : Access where
  kind    := kind
  first   := addr
  more    := (List.range (len - 1)).map fun k => addr + BitVec.ofNat 32 (k + 1)
  context := ctx

def params (s l : ParamVerdict) (m : ReservedMaskAs) : MatchParams := ⟨fun _ _ _ _ => s, fun _ _ => l, m⟩

/-- A row of 2.7 with `StateMatch` true. -/
def matchRow (c w : Word) (kind : AccessKind) (addr : Word) (len : Nat) : MatchVerdict :=
  matchVerdict (params .yes .reserved .disabled) c w (span kind addr len)

theorem test_match_M1_M10 :
    [matchRow 0x1FFF 0x20001000 .load 0x20001000 4, matchRow 0x1FFF 0x20001000 .store 0x20001007 1,
     matchRow 0x1FFF 0x20001000 .load 0x20001008 4, matchRow 0x1FFF 0x20001000 .load 0x20000FFE 2,
     matchRow 0x1FFF 0x20001000 .load 0x20000FFE 4, matchRow 0x1FFE 0x20001000 .load 0x20001000 4,
     matchRow 0x1FE7 0x20001000 .load 0x20001000 4, matchRow 0x2D 0x20001000 .load 0x20001000 1,
     matchRow 0x2D 0x20001000 .store 0x20001000 1, matchRow 0x2D 0x20001000 .load 0x20001001 1]
    = [.matched, .matched, .noMatch, .noMatch, .matched, .noMatch, .noMatch, .matched, .noMatch, .noMatch] := by decide
theorem test_match_M11_M20 :
    [matchRow 0x1E17 0x20001000 .store 0x20001004 4, matchRow 0x1E17 0x20001000 .store 0x20001000 4,
     matchRow 0x1E17 0x20001004 .store 0x20001004 4, matchRow 0x1E17 0x20001004 .store 0x20001008 4,
     matchRow 0x79F 0x20001000 .load 0x20001002 1, matchRow 0x79F 0x20001000 .load 0x20001001 1,
     matchRow 0x79F 0x20001000 .store 0x20001005 1, matchRow 0x79F 0x20001000 .store 0x20001006 2,
     matchRow 0x79F 0x20001004 .load 0x20001006 1, matchRow 0x79F 0x20001004 .load 0x20001008 1]
    = [.matched, .noMatch, .noMatch, .noMatch, .matched, .noMatch, .matched, .noMatch, .matched, .noMatch] := by decide
theorem test_match_M21_M30 :
    [matchRow 0xBF 0x20001000 .load 0x20001000 1, matchRow 0xBE 0x20001000 .load 0x20001000 1,
     matchRow 0x1F 0x20001000 .load 0x20001000 1, matchRow 0x1FFF 0x20001002 .load 0x20001002 1,
     matchRow 0x03001FFF 0x20001000 .load 0x20001007 1, matchRow 0x03001FFF 0x20001000 .load 0x20001008 1,
     matchRow 0x0C001FEB 0x20001000 .load 0x20001FFC 4, matchRow 0x0C001FEB 0x20001000 .load 0x20002000 4,
     matchRow 0x0C001FEB 0x20001000 .store 0x20001800 4, matchRow 0x0C001FEB 0x20001000 .load 0x20001FFE 4]
    = [.refused [.reservedBAS], .noMatch, .refused [.reservedBAS], .refused [.wvrLowBits], .matched, .noMatch, .matched,
       .noMatch, .noMatch, .matched] := by decide
theorem test_match_M31_M36 :
    [matchRow 0x1F001FFF 0x80000000 .store 0xFFFFFFFF 1, matchRow 0x1F001FFF 0x80000000 .store 0x7FFFFFFF 1,
     matchRow 0x1F001FFF 0 .load 0x7FFFFFFF 1, matchRow 0x0300079F 0x20001000 .load 0x20001000 1,
     matchRow 0x03001FFF 0x20001004 .load 0x20001004 1, matchRow 0x0C001FEB 0x20001800 .load 0x20001800 1]
    = [.matched, .noMatch, .matched, .refused [.maskWithBAS], .refused [.maskWithBAS], .refused [.maskWithBAS]] := by decide

/-- Rows M37 to M42: one access, other parameters. -/
def paramRow (c : Word) (s l : ParamVerdict) : MatchVerdict :=
  matchVerdict (params s l .disabled) c 0x20001000 (span .load 0x20001000 1)

theorem test_match_M37_M42 :
    [paramRow 0x1FFF .no .yes, paramRow 0x101FFF .yes .no, paramRow 0x101FFF .yes .yes, paramRow 0x141FFF .yes .reserved,
     paramRow 0x1FFF .reserved .yes, paramRow 0x1FFE .reserved .yes]
    = [.noMatch, .noMatch, .matched, .refused [.reservedLink], .refused [.reservedSSCHMCPAC], .noMatch] := by decide

/-- The reserved MASK table of 2.7. -/
theorem test_match_reserved_mask :
    [ReservedMaskAs.disabled, .unmasked, .masked 0, .masked 9].map (fun m =>
      (matchVerdict (params .yes .yes m) 0x01001FFF 0x20001000 (span .load 0x20001003 1),
       matchVerdict (params .yes .yes m) 0x01001FFF 0x20001000 (span .load 0x20001009 1)))
    = [(.noMatch, .noMatch), (.matched, .noMatch), (.matched, .noMatch), (.matched, .matched)] := by decide

/-! ### Single steps -/

/-- EL1 with nothing set (A3). -/
def quietInputs : Inputs := inputsOf .el1 [0,0,0,0,0,0,0,0,0,1,1,0,0]

/-- A small state: `DBGWCR0` and `DBGWCR1` written, general registers 1 and 2 set, a word at address 0. -/
def demo (res0 : Bool) (inp : Inputs) (set : InstrSet) (w : Word) : State :=
  { State.reset with
    cfg  := cfg true res0
    inp  := inp
    iset := set
    text := [(0, w)]
    wcr  := (State.reset.wcr.set 0 ⟨.held 0x0000002D#32, []⟩).set 1 ⟨.held 0x0314A195#32, []⟩
    x    := (State.reset.x.set 1 0xE0E01FFF#32).set 2 0x55555555#32 }

/-- Whether an outcome is a next state with a property. -/
def nextHas (o : Host.Outcome State Fault Refusal) (p : State → Bool) : Bool :=
  match o with
  | .next t => p t
  | .fault _ => false
  | .refused _ => false

def faultIs (o : Host.Outcome State Fault Refusal) (f : Fault) : Bool :=
  match o with
  | .next _ => false
  | .fault g => g == f
  | .refused _ => false

def refusalIs (o : Host.Outcome State Fault Refusal) (r : Refusal) : Bool :=
  match o with
  | .next _ => false
  | .fault _ => false
  | .refused q => q == r

/-- P1, first instruction, with the RES0 bits no storage. -/
theorem test_mcrA32_P1 :
    nextHas (step (demo false quietInputs .a32 0xEE001EF0#32)) (fun t =>
      t.wcrAt 0 == ⟨.held 0x00001FFF#32, [.held 0x0000002D#32]⟩ && t.wcrAt 1 == ⟨.held 0x0314A195#32, []⟩ &&
      t.readX 1 == 0xE0E01FFF#32 && t.pc == 4#32) = true := by decide
/-- P1, first instruction, with them storage. -/
theorem test_mcrT32_P1 :
    nextHas (step (demo true quietInputs .t32 0xEE001EF0#32)) (fun t => (t.wcrAt 0).contents == .held 0xE0E01FFF#32) = true := by
  decide
/-- P3, the row "EL1, nothing set". -/
theorem test_mrcA32_P3 :
    nextHas (step (demo false quietInputs .a32 0xEE102EF0#32)) (fun t =>
      t.readX 2 == 0x0000002D#32 && t.readX 1 == 0xE0E01FFF#32 && t.wcrAt 0 == ⟨.held 0x0000002D#32, []⟩) = true := by decide
/-- P2, first instruction, in T32. -/
theorem test_mrcT32_P2 :
    nextHas (step (demo false quietInputs .t32 0xEE104EF1#32)) (fun t => t.readX 4 == 0x0314A195#32) = true := by decide
/-- P3, the rows that end in an outcome. -/
theorem test_outcomes_P3 :
    [faultIs (step (demo false (inputsOf .el0 [0,0,0,0,0,0,0,0,0,1,1,0,0]) .a32 0xEE100EF0#32)) .undefined,
     faultIs (step (demo false (inputsOf .el1 [1,1,0,0,1,0,0,0,0,1,1,0,0]) .a32 0xEE100EF0#32)) (.hypTrap 5),
     faultIs (step (demo false (inputsOf .el1 [0,0,0,0,0,0,1,0,1,1,1,0,0]) .a32 0xEE100EF0#32)) (.sysTrapEL3 5),
     faultIs (step (demo false (inputsOf .el1 [0,0,0,0,0,0,0,0,0,1,0,1,1]) .a32 0xEE100EF0#32)) .haltSoftwareAccess]
    = [true, true, true, true] := by decide
/-- P4: an unimplemented watchpoint. -/
theorem test_unimplemented_P4 : faultIs (step (demo false quietInputs .a32 0xEE003EF7#32)) .undefined = true := by decide
theorem test_rt15_refused : refusalIs (step (demo false quietInputs .a32 0xEE10FEF0#32)) .rtIsPC = true := by decide
theorem test_condition_failed_refused :
    refusalIs (step (demo false { quietInputs with conditionPassed := false } .a32 0x0E100EF0#32)) .conditionFailed = true := by
  decide
/-- Each row's word runs as the first instruction after reset, UNKNOWN registers included. -/
theorem test_rows_run_after_reset :
    [0x0E100EF0, 0x0E000EF0, 0xEE100EF0, 0xEE000EF0].map
      (fun w => nextHas (step (State.reset.withFetchWord 32 w)) fun t => t.pc == 4#32) = [true, true, true, true] := by decide
/-- 2.8: a Cold reset, a Warm reset. -/
theorem test_resets_2_8 :
    [nextHas (step ((demo false quietInputs .a32 0).withSchedule [.coldReset])) (fun t => t.wcrAt 0 == ⟨.unknown, []⟩),
     nextHas (step ((demo false quietInputs .a32 0).withSchedule [.warmReset])) (fun t => t.wcrAt 0 == ⟨.held 0x2D#32, []⟩)]
    = [true, true] := by decide
theorem test_other_writers_excluded :
    refusalIs (step ((demo false quietInputs .a32 0).withSchedule [.otherWrite .external 0 1#32])) .otherWritersExcluded = true := by
  decide
/-- P5: before its synchronisation point, the stored value and the old one may both govern. -/
theorem test_window_P5 :
    (((demo false quietInputs .a32 0).writePath .aarch32 2 0x0C001FEB#32).wcrAt 2).candidates
      = [.held 0x0C001FEB#32, .unknown] := by decide
theorem test_wellFormedWcr :
    [0x00001FFE#32, 0x00001FFF#32, 0x01001FFF#32, 0x000000BF#32, 0x00001FE7#32].map Safety.wellFormedWcr
      = [true, true, false, false, false] := by decide

/-! ### Witnesses: for each statement, a state and operands that meet its hypotheses -/

/-- The state of P1 (A3). -/
def s₀ : State := demo false quietInputs .a32 0xEE001EF0#32

/-- The state of P1 in the inputs of a row of 2.3. -/
def at_ (el : EL) (l : List Nat) : State :=
  { s₀ with inp := inputsOf el l, cfg := cfg (l.getD 6 0 == 1) false }

/-- The state of P1 with an event scheduled. -/
def before (e : Event) : State := { s₀ with schedule := [e] }

theorem test_witness_admitted_a32_always :
    Admitted (.mrcA32 0b1110#4 14 0) { s₀ with inp := { quietInputs with conditionPassed := false } } := by decide
theorem test_witness_admitted_a32_conditional : Admitted (.mcrA32 0b0000#4 0 15) s₀ := by decide
theorem test_witness_admitted_t32 : Admitted (.mcrT32 14 3) s₀ ∧ Admitted (.mrcT32 0 3) s₀ := by decide
theorem test_witness_DecodeInvertsEncode : (0b1110#4 : BitVec 4) ≠ 0b1111#4 ∧ (0#4 : BitVec 4) ≠ 0b1111#4 := by decide
theorem test_witness_EncodeInvertsDecode : decode .t32 0xEE10EEF7#32 = .instr (.mrcT32 14 7) := by decide
theorem test_witness_AddressMaskValues : (3 ≤ 31 ∧ 31 ≤ 31) ∧ ((0#5 : BitVec 5) ≠ 1#5 ∧ (31#5 : BitVec 5) ≠ 2#5) := by decide
theorem test_witness_AccessAtEL0IsUndefined :
    Admitted (.mrcT32 0 7) (at_ .el0 [1,0,0,1,0,0,1,0,1,1,0,1,1]) ∧ (at_ .el0 [1,0,0,1,0,0,1,0,1,1,0,1,1]).inp.el = .el0 := by
  decide
/-- EL1: A4, A9, A12, A16, A3, one for each clause of the column. -/
theorem test_witness_OutcomePriority_EL1 :
    (s₀.implemented 0 = true ∧ s₀.inp.el = .el1) ∧
    EL2Trap64 (at_ .el1 [1,0,1,0,0,0,0,0,0,1,1,0,0]).inp ∧
    (¬ EL2Trap64 (at_ .el1 [1,1,0,0,1,0,0,0,0,1,1,0,0]).inp ∧ EL2Trap32 (at_ .el1 [1,1,0,0,1,0,0,0,0,1,1,0,0]).inp) ∧
    (¬ EL2Trap64 (at_ .el1 [0,0,0,0,0,0,1,0,1,1,1,0,0]).inp ∧ ¬ EL2Trap32 (at_ .el1 [0,0,0,0,0,0,1,0,1,1,1,0,0]).inp ∧
      EL3Trap (at_ .el1 [0,0,0,0,0,0,1,0,1,1,1,0,0])) ∧
    (¬ EL3Trap (at_ .el1 [0,0,0,0,0,0,0,0,0,1,0,1,1]) ∧ SoftwareAccessHalt (at_ .el1 [0,0,0,0,0,0,0,0,0,1,0,1,1]).inp) ∧
    Permitted s₀ :=
  ⟨⟨by decide, by decide⟩, by decide, ⟨by decide, by decide⟩, ⟨by decide, by decide, by decide⟩, ⟨by decide, by decide⟩,
    by decide⟩
/-- EL2 and EL3: A23, A25, A26, A28, A27. -/
theorem test_witness_OutcomePriority_EL2_EL3 :
    EL3Trap (at_ .el2 [0,0,0,0,0,0,1,0,1,1,1,0,0]) ∧
    (¬ EL3Trap (at_ .el2 [0,0,0,0,0,0,1,1,1,1,0,1,1]) ∧ SoftwareAccessHalt (at_ .el2 [0,0,0,0,0,0,1,1,1,1,0,1,1]).inp) ∧
    Permitted (at_ .el2 [0,0,0,0,0,0,0,0,0,1,1,0,0]) ∧
    SoftwareAccessHalt (at_ .el3 [0,0,0,0,0,0,1,1,0,1,0,1,1]).inp ∧
    Permitted (at_ .el3 [0,0,0,0,0,0,1,0,1,1,1,0,0]) :=
  ⟨by decide, ⟨by decide, by decide⟩, by decide, by decide, by decide⟩
/-- The premise `exec … = fault …` of SysTrapEL2, HypTrap, SysTrapEL3 and SoftwareAccessHaltRaisedExactly. -/
theorem test_witness_RaisedExactly :
    [faultIs (exec (.mcrA32 14#4 1 0) (at_ .el1 [1,0,1,0,0,0,0,0,0,1,1,0,0])) (.sysTrapEL2 5),
     faultIs (exec (.mcrT32 1 0) (at_ .el1 [1,1,0,0,1,0,0,0,0,1,1,0,0])) (.hypTrap 5),
     faultIs (exec (.mrcA32 14#4 1 0) (at_ .el2 [0,0,0,0,0,0,1,0,1,1,1,0,0])) (.sysTrapEL3 5),
     faultIs (exec (.mrcT32 1 0) (at_ .el3 [0,0,0,0,0,0,1,1,0,1,0,1,1])) .haltSoftwareAccess]
    = [true, true, true, true] := by decide
/-- Every clause of the gate's statement, on watchpoint 7, which is not implemented. -/
theorem test_witness_UnimplementedWatchpointGate :
    (Admitted (.mcrA32 14#4 3 7) s₀ ∧ s₀.implemented 7 = false ∧ Permitted s₀) ∧
    EL2Trap64 (at_ .el1 [1,0,1,0,0,0,0,0,0,1,1,0,0]).inp ∧ EL2Trap32 (at_ .el1 [1,1,0,0,1,0,0,0,0,1,1,0,0]).inp ∧
    EL3Trap (at_ .el2 [0,0,0,0,0,0,1,0,1,1,1,0,0]) ∧ SoftwareAccessHalt (at_ .el3 [0,0,0,0,0,0,1,1,0,1,0,1,1]).inp := by decide
theorem test_witness_ReadAndWriteHaveTheSameRights :
    Admitted (.mrcA32 14#4 3 1) s₀ ∧ Admitted (.mcrT32 4 1) s₀ ∧ (Instr.mrcA32 14#4 3 1).crm = (Instr.mcrT32 4 1).crm := by
  decide
/-- The premises of the three refusal clauses of AdmissionDecidesRefusal; its last clause is Admitted. -/
theorem test_witness_AdmissionDecidesRefusal :
    (Instr.mrcT32 15 0).rt.val = 15 ∧
    ((Instr.mcrT32 0 0).rt.val < 15 ∧ (Instr.mcrT32 0 0).set = .t32 ∧
      ({ quietInputs with conditionPassed := false } : Inputs).conditionPassed = false) ∧
    ((0#4 : BitVec 4) ≠ 14#4 ∧ (0#4 : BitVec 4) ≠ 15#4) := by decide
/-- MrcReadsTheStoredValue, RepeatedReadsAgree, and with the write WriteThenReadReturnsTheValue. -/
theorem test_witness_MrcReadsTheStoredValue :
    Admitted (.mrcA32 14#4 2 1) s₀ ∧ Permitted s₀ ∧ s₀.implemented 1 = true ∧ (s₀.wcrAt 1).contents = .held 0x0314A195#32 ∧
    Admitted (.mrcT32 14 1) s₀ := by decide
theorem test_witness_MrcOfUnknownRegisterDraws :
    Admitted (.mrcT32 2 3) s₀ ∧ Permitted s₀ ∧ s₀.implemented 3 = true ∧ (s₀.wcrAt 3).contents = .unknown ∧
    s₀.cfg.res0IsStorage = false := by decide
/-- McrWritesTheWholeRegister and StoreValueKeepsEveryField, both settings of `RES0_IS_STORAGE`. -/
theorem test_witness_McrWritesTheWholeRegister :
    Admitted (.mcrA32 14#4 1 0) s₀ ∧ Admitted (.mcrT32 1 0) s₀ ∧ Permitted s₀ ∧ s₀.implemented 0 = true ∧
    s₀.cfg.res0IsStorage = false ∧ (demo true quietInputs .a32 0).cfg.res0IsStorage = true := by decide
/-- MrcFrame, McrFrame: both complete. -/
theorem test_witness_frames :
    nextHas (exec (.mrcA32 14#4 2 1) s₀) (fun _ => true) = true ∧ nextHas (exec (.mcrT32 1 0) s₀) (fun _ => true) = true := by
  decide
theorem test_witness_Res0BitsReadAsZero : s₀.cfg.res0IsStorage = false ∧ (s₀.wcrAt 15).contents = .unknown := by decide
/-- The state of P3's row "EL1, Hyp trap set" (A9), then the same with the trap cleared: a held register and an UNKNOWN one. -/
theorem test_witness_ReexecutionAfterAnOutcome :
    faultIs (exec (.mrcA32 14#4 0 0) (at_ .el1 [1,1,0,0,1,0,0,0,0,1,1,0,0])) (.hypTrap 5) = true ∧
    Permitted { (at_ .el1 [1,1,0,0,1,0,0,0,0,1,1,0,0]) with inp := quietInputs } ∧
    Admitted (.mrcA32 14#4 0 0) { (at_ .el1 [1,1,0,0,1,0,0,0,0,1,1,0,0]) with inp := quietInputs } ∧
    (at_ .el1 [1,1,0,0,1,0,0,0,0,1,1,0,0]).implemented 0 = true ∧
    ((at_ .el1 [1,1,0,0,1,0,0,0,0,1,1,0,0]).wcrAt 0).contents = .held 0x2D#32 ∧
    ((at_ .el1 [1,1,0,0,1,0,0,0,0,1,1,0,0]).wcrAt 3).contents = .unknown ∧
    s₀.fetch = some 0xEE001EF0#32 ∧ decode s₀.iset 0xEE001EF0#32 = .instr (.mcrA32 14#4 1 0) := by decide
/-- DisabledWatchpointIgnoresItsFields and ReservedLoadStoreControlDisables, with reserved fields beside. -/
theorem test_witness_disabled :
    eOf 0x010000BE#32 = 0#1 ∧ lscOf 0x01001FE7#32 = 0b00#2 ∧ (s₀.setWcr 0 ⟨.held 0x010000BE#32, []⟩).wcrAt 0 = ⟨.held 0x010000BE#32, []⟩ := by
  decide
theorem test_witness_OtherAccessTypeNeverMatches :
    lscOf 0x0000002D#32 = 0b01#2 ∧ (span .store 0 1).kind = .store ∧ lscOf 0x00001E17#32 = 0b10#2 ∧ (span .load 0 1).kind = .load := by
  decide
theorem test_witness_ReservedMaskBehavesAsIf : maskOf 0x01001FFF#32 = 1#5 ∧ maskOf 0x02001FFF#32 = 2#5 := by decide
/-- UnmaskedMatchIsByteSelect and WordAddressIgnoresHighByteSelects: a double-word and a word address. -/
theorem test_witness_UnmaskedMatchIsByteSelect :
    Armed 0x0000079F#32 (span .load 0x20001002 1) ∧ ParamsHold (params .yes .no .disabled) 0x0000079F#32 ctx ∧
    maskOf 0x0000079F#32 = 0#5 ∧ (0x20001004#32).toNat % 4 = 0 ∧ basValid (basOf 0x0000079F#32) = true ∧
    (0x20001000#32).getLsbD 2 = false ∧ (0x20001004#32).getLsbD 2 = true ∧ (0xF3#8 &&& 0x0F#8 = 0x03#8 &&& 0x0F#8) := by decide
/-- MaskedMatchIsAlignedBlock: the smallest and the largest mask, and a refused one. -/
theorem test_witness_MaskedMatchIsAlignedBlock :
    Armed 0x03001FFF#32 (span .load 0 1) ∧ (maskOf 0x03001FFF#32).toNat = 3 ∧ (maskOf 0x1F001FFF#32).toNat = 31 ∧
    ParamsHold (params .yes .no .disabled) 0x1F001FFF#32 ctx ∧ basOf 0x1F001FFF#32 = 0xFF#8 ∧
    (0x80000000#32).toNat % 2 ^ 31 = 0 ∧ basOf 0x0300079F#32 ≠ 0xFF#8 := by decide +kernel
theorem test_witness_MaskNeverSpansBothHalves :
    ∀ b ∈ (span .store 0x7FFFFFFF#32 1).bytes, b.getLsbD 31 ≠ (0x80000000#32).getLsbD 31 := by
  intro b hb
  simp only [span, Access.bytes, Nat.sub_self, List.range_zero, List.map_nil, List.mem_singleton] at hb
  subst hb
  decide
theorem test_witness_RefusedExactlyWhen :
    Armed 0x000000BF#32 (span .load 0 1) ∧ maskOf 0x000000BF#32 ≠ 1#5 ∧ maskOf 0x000000BF#32 ≠ 2#5 := by decide
/-- MatchNeedsEveryCondition under the smallest mask and the largest: M25, M31. -/
theorem test_witness_MatchNeedsEveryCondition_masked :
    matchVerdict (params .yes .no .disabled) 0x03001FFF#32 0x20001000#32 (span .load 0x20001007 1) = .matched ∧
    matchVerdict (params .yes .no .disabled) 0x1F001FFF#32 0x80000000#32 (span .store 0xFFFFFFFF 1) = .matched ∧
    effectiveMask .disabled (maskOf 0x03001FFF#32) = some 3 ∧ effectiveMask .disabled (maskOf 0x1F001FFF#32) = some 31 ∧
    effectiveMask .disabled (maskOf 0x0000002D#32) = some 0 := by
  decide +kernel
/-- MatchNeedsEveryCondition and WiderAccessStillMatches: M8, then the word around its byte. -/
theorem test_witness_MatchNeedsEveryCondition :
    matchVerdict (params .yes .no .disabled) 0x0000002D#32 0x20001000#32 (span .load 0x20001000 1) = .matched ∧
    (∀ x ∈ (span .load 0x20001000 1).bytes, x ∈ (span .load 0x20001000 4).bytes) := by
  refine ⟨by decide, ?_⟩
  intro x hx
  simp only [span, Access.bytes, Nat.sub_self, List.range_zero, List.map_nil, List.mem_singleton] at hx
  subst hx
  exact List.mem_cons_self
theorem test_witness_UnlinkedWatchpointIgnoresLink :
    wtOf 0x00001FFF#32 = 0#1 ∧ (params .yes .no .disabled).reservedMask = (params .yes .yes .disabled).reservedMask := by decide
theorem test_witness_Res0BitsDoNotAffectMatching :
    0xE0E01FFF#32 &&& 0x1F1FFFFF#32 = 0x00001FFF#32 &&& 0x1F1FFFFF#32 := by decide
theorem test_witness_WellFormedValuesAreNotRefused :
    Safety.wellFormedWcr 0x0C001FEB#32 = true ∧ (0x20001000#32).toNat % 4 = 0 ∧ basOf 0x0C001FEB#32 = 0xFF#8 ∧
    (0x20001000#32).toNat % 2 ^ (maskOf 0x0C001FEB#32).toNat = 0 ∧ wtOf 0x0C001FEB#32 = 0#1 ∧
    (params .no .no .disabled).stateMatch 0 0 0 ctx ≠ .reserved ∧ (maskOf 0x00001FFF#32).toNat = 0 := by decide
/-- The schedules of the environment's statements. -/
theorem test_witness_schedules :
    (before .coldReset).schedule = .coldReset :: [] ∧ (before .warmReset).schedule = .warmReset :: [] ∧
    (before (.synchronise 15)).schedule = .synchronise 15 :: [] ∧
    (before (.dataAccess (span .load 0 1))).schedule = .dataAccess (span .load 0 1) :: [] ∧
    (before .execute).schedule = .execute :: [] ∧ s₀.implemented 3 = true ∧ s₀.implemented 4 = false := by decide
/-- `s₀` where other writers exist, one of them about to write to watchpoint n. -/
def writtenByOther (n : Fin 16) : State :=
  { before (.otherWrite .aarch64 n 5#32) with cfg := { cfg true false with otherWriters := true } }
/-- OtherWritersWriteTheSameStorage, each of its three cases: an implemented and an unimplemented watchpoint where other
writers exist, and a state where they do not. -/
theorem test_witness_OtherWritersWriteTheSameStorage :
    ((writtenByOther 3).schedule = .otherWrite .aarch64 3 5#32 :: [] ∧ (writtenByOther 3).cfg.otherWriters = true ∧
      (writtenByOther 3).implemented 3 = true) ∧
    ((writtenByOther 4).schedule = .otherWrite .aarch64 4 5#32 :: [] ∧ (writtenByOther 4).cfg.otherWriters = true ∧
      (writtenByOther 4).implemented 4 = false) ∧
    ((before (.otherWrite .external 0 5#32)).schedule = .otherWrite .external 0 5#32 :: [] ∧
      (before (.otherWrite .external 0 5#32)).cfg.otherWriters = false) := by decide
/-- The last clause of DataAccessIsMatchedOnGoverningValues: a synchronised, written, implemented register. -/
theorem test_witness_DataAccessIsMatchedOnGoverningValues : s₀.implemented 0 = true ∧ s₀.wcrAt 0 = ⟨.held 0x2D#32, []⟩ := by decide
/-- EnclosingProcessorChangesOnlyItsOwn. -/
theorem test_witness_enclosing :
    (before (.setInputs quietInputs)).schedule = .setInputs quietInputs :: [] ∧
    (before (.setWvr 15 4#32)).schedule = .setWvr 15 4#32 :: [] ∧ (before (.setX 14 4#32)).schedule = .setX 14 4#32 :: [] ∧
    (before (.setPc 8#32 .t32)).schedule = .setPc 8#32 .t32 :: [] := by decide
theorem test_witness_StepRunsTheDecodedInstruction :
    s₀.schedule = [] ∧ Memory.read s₀.text s₀.pc.toNat = some 0xEE001EF0#32 ∧
    decode s₀.iset 0xEE001EF0#32 = .instr (.mcrA32 14#4 1 0) ∧ decode .a32 0#32 = .reject .notRegisterTransfer ∧
    Memory.read State.reset.text State.reset.pc.toNat = none := by decide
/-- A state other than reset that completes a step: ParametersAndTextNeverChange, OnlyWritersChangeARegister,
OnlyMrcOrTheProcessorWritesX, StepKeepsTheInvariant. -/
theorem test_witness_step_completes : nextHas (step s₀) (fun _ => true) = true := by decide
theorem test_witness_StepKeepsTheInvariant : Inv s₀ := by
  refine ⟨?_, by decide, by decide, fun r h => by cases h⟩
  intro n v _ hv
  have h : ∀ n : Fin 16, s₀.wcrAt n = ⟨.held 0x2D#32, []⟩ ∨ s₀.wcrAt n = ⟨.held 0x0314A195#32, []⟩ ∨ s₀.wcrAt n = ⟨.unknown, []⟩ := by
    decide
  rcases h n with h | h | h <;> rw [h] at hv <;> simp [Wcr.candidates] at hv <;> subst hv <;> decide
theorem test_witness_BootDutyQuietsAWatchpoint :
    Admitted (.mcrA32 14#4 0 0) s₀ ∧ Permitted s₀ ∧ s₀.implemented 0 = true ∧ eOf (s₀.readX 0) = 0#1 := by decide
/-- A quiet watchpoint and a step that completes and does not write it: a data access. -/
theorem test_witness_QuietWatchpointStaysQuiet :
    Safety.quiet ((before (.dataAccess (span .load 0 1))).setWcr 0 ⟨.held 0x1FFE#32, []⟩) 0 = true ∧
    nextHas (step ((before (.dataAccess (span .load 0 1))).setWcr 0 ⟨.held 0x1FFE#32, []⟩)) (fun _ => true) = true ∧
    ¬ Writes ((before (.dataAccess (span .load 0 1))).setWcr 0 ⟨.held 0x1FFE#32, []⟩) 0 := by
  refine ⟨by decide, by decide, ?_⟩
  rintro (⟨i, h, -⟩ | ⟨p, v, h⟩ | h)
  · exact absurd h (by rw [show Current _ = none from rfl]; simp)
  · cases h
  · cases h

end Sys2Proof.Tests
end

/-! The family of spec/00_scope.md: what a step runs (R7, R35), and what no step changes (R4, D19). -/

namespace Sys2Proof.Machine

/-! ### What no step changes -/

theorem exec_keeps_cfg_text {i : Instr} {s u : State} (h : exec i s = .next u) :
    u.cfg = s.cfg ∧ u.text = s.text := by
  obtain ⟨t, -, -, -, ⟨-, rfl⟩ | ⟨-, rfl⟩⟩ := exec_next h
  · obtain ⟨k, hk⟩ := readPath_state .aarch32 s i.crm
    simp [hk]
  · simp

theorem runEvent_keeps_cfg_text {e : Event} {s u : State} (he : e ≠ .execute) (h : runEvent e s = .next u) :
    u.cfg = s.cfg ∧ u.text = s.text := by
  cases e with
  | execute => exact absurd rfl he
  | otherWrite path n v =>
    obtain ⟨-, -, rfl⟩ := otherWrite_next h
    simp
  | coldReset | warmReset | synchronise | dataAccess | setInputs | setWvr | setX | setPc =>
    cases h
    exact ⟨rfl, rfl⟩

/-! ### What a step runs -/

/-- With nothing scheduled, or with `execute` first, the step is the instruction of the state after the schedule's head. -/
theorem step_eq_runInstruction {s s₀ : State}
    (h : (s.schedule = [] ∧ s₀ = s) ∨ ∃ rest, s.schedule = .execute :: rest ∧ s₀ = s.withSchedule rest) :
    step s = runInstruction s₀ := by
  obtain ⟨hs, rfl⟩ | ⟨rest, hs, rfl⟩ := h <;> simp [step, hs, runEvent]

theorem runInstruction_of_instr {s : State} {w : Word} {i : Instr}
    (hf : s.fetch = some w) (hd : decode s.iset w = .instr i) :
    runInstruction s = continueAfter (exec i s) := by
  simp [runInstruction, hf, hd]

theorem runInstruction_of_reject {s : State} {w : Word} {e : DecodeError}
    (hf : s.fetch = some w) (hd : decode s.iset w = .reject e) :
    runInstruction s = .refused (.otherInstruction e) := by
  simp [runInstruction, hf, hd]

theorem runInstruction_of_no_text {s : State} (hf : s.fetch = none) :
    runInstruction s = .refused .noProgramText := by
  simp [runInstruction, hf]

end Sys2Proof.Machine

namespace Sys2Proof.Proofs

open Sys2Proof.Machine

/-- Settles O52: a completed step is an instruction, whose two accesses write general registers or `DBGWCR<n>`, or an
event of the environment, none of which names a parameter or the text. -/
theorem parametersAndTextNeverChange : Obligations.ParametersAndTextNeverChange := by
  intro s u h
  obtain ⟨s₀, w, i, t, hs, -, -, hexec, rfl⟩ | ⟨e, rest, -, he, hrun⟩ := step_next h
  · obtain ⟨hcfg, htext⟩ := exec_keeps_cfg_text hexec
    obtain ⟨-, rfl⟩ | ⟨rest, -, rfl⟩ := hs <;> exact ⟨hcfg, htext⟩
  · exact runEvent_keeps_cfg_text (s := s.withSchedule rest) he hrun

/-- Settles O49: the step is `runInstruction` of the state it starts from, whose fetch and decoding decide the clause. -/
theorem stepRunsTheDecodedInstruction : Obligations.StepRunsTheDecodedInstruction := by
  intro s s₀ h
  rw [step_eq_runInstruction h]
  refine ⟨fun w i hf hd => ?_, fun w e hf hd => runInstruction_of_reject hf hd, runInstruction_of_no_text⟩
  rw [runInstruction_of_instr hf hd]
  exact ⟨fun _ hexec => congrArg continueAfter hexec, fun _ hexec => congrArg continueAfter hexec,
    fun _ hexec => congrArg continueAfter hexec⟩

end Sys2Proof.Proofs

/-! The family of spec/10_state.md: the fields of the register (R11 to R28), what a step can do to the registers, the
general registers and the report (R10, R30, R31, R33 to R35), and the invariant. -/

namespace Sys2Proof.Machine

open Sys2Proof.Claims

/-! ### The fields of a word -/

theorem toNat_append_eq_add {m n : Nat} (x : BitVec m) (y : BitVec n) :
    (x ++ y).toNat = x.toNat * 2 ^ n + y.toNat := by
  rw [BitVec.toNat_append, ← Nat.shiftLeft_add_eq_or_of_lt y.isLt, Nat.shiftLeft_eq]

section
variable (r31 : BitVec 3) (mask : BitVec 5) (r23 : BitVec 3) (wt : BitVec 1) (lbn : BitVec 4) (ssc : BitVec 2)
  (hmc : BitVec 1) (bas : BitVec 8) (lsc pac : BitVec 2) (e : BitVec 1)

theorem pack_toNat : (pack r31 mask r23 wt lbn ssc hmc bas lsc pac e).toNat =
    r31.toNat * 2 ^ 29 + mask.toNat * 2 ^ 24 + r23.toNat * 2 ^ 21 + wt.toNat * 2 ^ 20 + lbn.toNat * 2 ^ 16 +
      ssc.toNat * 2 ^ 14 + hmc.toNat * 2 ^ 13 + bas.toNat * 2 ^ 5 + lsc.toNat * 2 ^ 3 + pac.toNat * 2 + e.toNat := by
  unfold pack
  simp only [toNat_append_eq_add]
  ring

/-- Each field is a quotient and remainder of the sum of `pack_toNat`. -/
theorem fields_pack :
    let c := pack r31 mask r23 wt lbn ssc hmc bas lsc pac e
    r31Of c = r31 ∧ maskOf c = mask ∧ r23Of c = r23 ∧ wtOf c = wt ∧ lbnOf c = lbn ∧ sscOf c = ssc ∧ hmcOf c = hmc ∧
      basOf c = bas ∧ lscOf c = lsc ∧ pacOf c = pac ∧ eOf c = e := by
  refine ⟨?_, ?_, ?_, ?_, ?_, ?_, ?_, ?_, ?_, ?_, ?_⟩ <;>
    (apply BitVec.eq_of_toNat_eq
     simp only [r31Of, maskOf, r23Of, wtOf, lbnOf, sscOf, hmcOf, basOf, lscOf, pacOf, eOf, BitVec.extractLsb'_toNat,
       Nat.shiftRight_eq_div_pow, pack_toNat]
     omega)

end

/-- The fields of a word, packed again, give the word: each field joins those above it. -/
theorem withMask_maskOf (c : Word) : withMask c (maskOf c) = c := by
  have join {k m n l : Nat} (h : k = l + n) : c.extractLsb' k m ++ c.extractLsb' l n = c.extractLsb' l (m + n) :=
    BitVec.extractLsb'_append_extractLsb'_eq_extractLsb' h
  unfold withMask pack r31Of maskOf r23Of wtOf lbnOf sscOf hmcOf basOf lscOf pacOf eOf
  rw [join (show 29 = 24 + 5 from rfl), join (show 24 = 21 + 3 from rfl), join (show 21 = 20 + 1 from rfl),
    join (show 20 = 16 + 4 from rfl), join (show 16 = 14 + 2 from rfl), join (show 14 = 13 + 1 from rfl),
    join (show 13 = 5 + 8 from rfl), join (show 5 = 3 + 2 from rfl), join (show 3 = 1 + 2 from rfl),
    join (show 1 = 0 + 1 from rfl)]
  exact BitVec.extractLsb'_eq_self

/-- Another MASK in a word changes none of the other fields that the match predicate reads. -/
theorem fields_withMask (c : Word) (m : BitVec 5) :
    maskOf (withMask c m) = m ∧ wtOf (withMask c m) = wtOf c ∧ lbnOf (withMask c m) = lbnOf c ∧
      sscOf (withMask c m) = sscOf c ∧ hmcOf (withMask c m) = hmcOf c ∧ basOf (withMask c m) = basOf c ∧
      lscOf (withMask c m) = lscOf c ∧ pacOf (withMask c m) = pacOf c ∧ eOf (withMask c m) = eOf c := by
  obtain ⟨-, hmask, -, hwt, hlbn, hssc, hhmc, hbas, hlsc, hpac, he⟩ := fields_pack (r31Of c) m (r23Of c) (wtOf c)
    (lbnOf c) (sscOf c) (hmcOf c) (basOf c) (lscOf c) (pacOf c) (eOf c)
  exact ⟨hmask, hwt, hlbn, hssc, hhmc, hbas, hlsc, hpac, he⟩

theorem effectiveMask_defined {m : BitVec 5} (choice : ReservedMaskAs) (h1 : m ≠ 1#5) (h2 : m ≠ 2#5) :
    effectiveMask choice m = some m.toNat := by
  refine if_neg ?_
  rintro (h | h)
  · exact h1 (BitVec.eq_of_toNat_eq h)
  · exact h2 (BitVec.eq_of_toNat_eq h)

theorem effectiveMask_reserved {m : BitVec 5} (h : m = 1#5 ∨ m = 2#5) :
    effectiveMask .disabled m = none ∧ effectiveMask .unmasked m = some 0 ∧
      ∀ k : Fin 29, effectiveMask (.masked k) m = some (k.val + 3) := by
  obtain rfl | rfl := h <;> exact ⟨rfl, rfl, fun _ => rfl⟩

/-- The defined values 3 to 31, as `ReservedMaskAs.masked` numbers them. -/
theorem effectiveMask_ofNat_add_three (choice : ReservedMaskAs) (k : Fin 29) :
    effectiveMask choice (BitVec.ofNat 5 (k.val + 3)) = some (k.val + 3) := by
  have hvalue : (BitVec.ofNat 5 (k.val + 3)).toNat = k.val + 3 := Nat.mod_eq_of_lt (by omega)
  have hne : ∀ m : BitVec 5, m.toNat < 3 → BitVec.ofNat 5 (k.val + 3) ≠ m := by
    rintro m hm rfl
    omega
  rw [effectiveMask_defined choice (hne _ (by decide)) (hne _ (by decide)), hvalue]

/-- Each of the 256 values of BAS that the carry test of `basValid` accepts is a run of ones (R23). -/
theorem run_of_basValid : ∀ bas : BitVec 8, basValid bas = true →
    ∃ L ≤ 8, ∃ s ≤ 8, 1 ≤ L ∧ L + s ≤ 8 ∧ bas.toNat = (2 ^ L - 1) * 2 ^ s := by
  decide

theorem basValid_of_run : ∀ L ≤ 8, ∀ s ≤ 8, 1 ≤ L → L + s ≤ 8 →
    basValid (BitVec.ofNat 8 ((2 ^ L - 1) * 2 ^ s)) = true := by
  decide

/-! ### Stored values -/

theorem storeValue_and_rwMask (cfg : Config) (v : Word) : storeValue cfg v &&& rwMask = v &&& rwMask := by
  unfold storeValue
  split
  · rfl
  · rw [BitVec.and_assoc, BitVec.and_self]

/-- The fields that reserved encodings may stand in are stored as written (R64). -/
theorem fields_storeValue (cfg : Config) (v : Word) :
    maskOf (storeValue cfg v) = maskOf v ∧ basOf (storeValue cfg v) = basOf v ∧
      lscOf (storeValue cfg v) = lscOf v := by
  obtain ⟨hmask, -, -, -, -, hbas, hlsc, -, -⟩ := rw_fields v
  unfold storeValue
  split
  · exact ⟨rfl, rfl, rfl⟩
  · exact ⟨hmask, hbas, hlsc⟩

/-- Through any of the register's names, a read after a write returns the value stored (R40, R65). -/
theorem readPath_writePath (p q : AccessPath) (s : State) (n : Fin 16) (v : Word) :
    ((s.writePath p n v).readPath q n).1 = storeValue s.cfg v := by
  rw [readPath_held q (s.writePath p n v) n (storeValue s.cfg v) (by simp), State.writePath_cfg,
    storeValue_storeValue]

/-! ### Which accesses are permitted -/

theorem conditionVerdict_of_admitted {i : Instr} {s : State} (h : Admitted i s) :
    conditionVerdict (conditionOf i) s.inp = .holds := by
  obtain ⟨-, hcond⟩ := h
  cases i with
  | mrcA32 cond | mcrA32 cond =>
    obtain ⟨hne, rfl | hpassed⟩ := hcond
    · rfl
    · simp [conditionOf, conditionVerdict, hne, hpassed]
  | mrcT32 | mcrT32 => exact if_pos hcond

theorem trapEL2A64_iff (i : Inputs) : trapEL2A64 i = true ↔ EL2Trap64 i := by simp [trapEL2A64, and_assoc]

theorem trapEL2A32_iff (i : Inputs) : trapEL2A32 i = true ↔ EL2Trap32 i := by simp [trapEL2A32, and_assoc]

theorem trapEL3A64_iff (s : State) : trapEL3A64 s.cfg.haveEL3 s.inp = true ↔ EL3Trap s := by
  simp [trapEL3A64, and_assoc]

theorem haltCond_iff (i : Inputs) : haltCond i = true ↔ SoftwareAccessHalt i := by simp [haltCond, and_assoc]

theorem checkHalt_proceed_iff (i : Inputs) : checkHalt i = .proceed ↔ ¬ SoftwareAccessHalt i := by
  rw [← haltCond_iff, checkHalt]
  split <;> simp [*]

theorem checkEL3Trap_proceed_iff (s : State) :
    checkEL3Trap s.cfg.haveEL3 s.inp = .proceed ↔ ¬ EL3Trap s ∧ ¬ SoftwareAccessHalt s.inp := by
  rw [← trapEL3A64_iff, ← checkHalt_proceed_iff, checkEL3Trap]
  split <;> simp [*]

theorem checkEL2Trap_proceed_iff (s : State) :
    checkEL2Trap s.cfg.haveEL3 s.inp = .proceed ↔
      ¬ EL2Trap64 s.inp ∧ ¬ EL2Trap32 s.inp ∧ ¬ EL3Trap s ∧ ¬ SoftwareAccessHalt s.inp := by
  rw [← trapEL2A64_iff, ← trapEL2A32_iff, ← checkEL3Trap_proceed_iff, checkEL2Trap]
  split
  · simp [*]
  · split <;> simp [*]

/-- The access check lets an access proceed exactly where R76 permits it. -/
theorem accessCheck_proceed_iff (s : State) : accessCheck s.cfg.haveEL3 s.inp = .proceed ↔ Permitted s := by
  unfold accessCheck Permitted
  cases s.inp.el with
  | el0 => simp
  | el1 => simpa using checkEL2Trap_proceed_iff s
  | el2 => simpa using checkEL3Trap_proceed_iff s
  | el3 => simpa using checkHalt_proceed_iff s.inp

theorem gate_of_permitted {s : State} {n : Fin 16} (hi : s.implemented n = true) (hp : Permitted s) :
    s.gate n = .proceed :=
  (gate_proceed_iff s n).2 ⟨hi, (accessCheck_proceed_iff s).2 hp⟩

/-! ### What an instruction does to one register -/

/-- A completed instruction leaves `DBGWCR<n>` as it was, or is an `MCR` of an implemented n and writes it (R62). -/
theorem exec_wcrAt {i : Instr} {s t : State} (h : exec i s = .next t) (n : Fin 16) :
    t.wcrAt n = s.wcrAt n ∨
    (i.isRead = false ∧ i.crm = n ∧ s.implemented n = true ∧
      ∃ v, t.wcrAt n = ⟨.held (storeValue s.cfg v), (s.wcrAt n).stale ++ [(s.wcrAt n).contents]⟩) := by
  obtain ⟨r, -, -, hgate, ⟨-, rfl⟩ | ⟨hread, rfl⟩⟩ := exec_next h
  · obtain ⟨k, hk⟩ := readPath_state .aarch32 s i.crm
    exact .inl (by simp [hk])
  · by_cases hn : i.crm = n
    · subst hn
      obtain ⟨himpl, -⟩ := (gate_proceed_iff s _).1 hgate
      exact .inr ⟨hread, rfl, himpl, s.readX r, by simp⟩
    · exact .inl (by simp [hn])

theorem exec_readX {i : Instr} {s u : State} (h : exec i s = .next u) (t : Fin 15) :
    u.readX t = s.readX t ∨ (i.isRead = true ∧ i.rt.val = t.val) := by
  obtain ⟨r, hr, -, -, ⟨hread, rfl⟩ | ⟨-, rfl⟩⟩ := exec_next h
  · by_cases ht : r = t
    · exact .inr ⟨hread, ht ▸ (generalRegister_some _ _).1 hr⟩
    · obtain ⟨k, hk⟩ := readPath_state .aarch32 s i.crm
      exact .inl (by rw [readX_writeX, if_neg ht, hk]; rfl)
  · exact .inl rfl

theorem exec_report {i : Instr} {s t : State} (h : exec i s = .next t) : t.report = s.report := by
  obtain ⟨r, -, -, -, ⟨-, rfl⟩ | ⟨-, rfl⟩⟩ := exec_next h
  · obtain ⟨k, hk⟩ := readPath_state .aarch32 s i.crm
    simp [hk]
  · simp

/-! ### What a step does -/

theorem step_of_event {s : State} {e : Event} {rest : List Event} (h : s.schedule = e :: rest) :
    step s = runEvent e (s.withSchedule rest) := by
  simp [step, h]

theorem current_of_running {s : State} {es : List Event} {w : Word} {i : Instr}
    (hs : s.schedule = [] ∨ s.schedule.head? = some .execute) (hf : (s.withSchedule es).fetch = some w)
    (hd : decode s.iset w = .instr i) : Current s = some i := by
  have hf' : s.fetch = some w := hf
  rcases h : s.schedule with _ | ⟨e, rest⟩
  · simp [Current, h, hf', hd]
  · obtain rfl : e = .execute := by simpa [h] using hs
    simp [Current, h, hf', hd]

/-- A completed step is the current instruction, run with some schedule and followed by the next in program order, or
the scheduled event of the environment. -/
theorem step_next_current {s u : State} (h : step s = .next u) :
    (∃ i es t, Current s = some i ∧ exec i (s.withSchedule es) = .next t ∧ u = t.advance) ∨
    (∃ e rest, s.schedule = e :: rest ∧ e ≠ .execute ∧ runEvent e (s.withSchedule rest) = .next u) := by
  obtain ⟨s₀, w, i, t, hs, hf, hd, hexec, rfl⟩ | hevent := step_next h
  · obtain ⟨hnil, rfl⟩ | ⟨rest, hcons, rfl⟩ := hs
    · exact .inl ⟨i, s₀.schedule, t, current_of_running (es := s₀.schedule) (.inl hnil) hf hd, hexec, rfl⟩
    · exact .inl ⟨i, rest, t, current_of_running (.inr (by simp [hcons])) hf hd, hexec, rfl⟩
  · exact .inr hevent

/-- What a step from `s` to `u` can have done to `DBGWCR<n>`. -/
inductive WcrStep (s u : State) (n : Fin 16) : Prop where
  /-- nothing -/
  | kept (h : u.wcrAt n = s.wcrAt n)
  /-- a synchronisation point closed the window (R47) -/
  | synchronised (h : u.wcrAt n = ⟨(s.wcrAt n).contents, []⟩)
  /-- a write by one of the three names (R48, R62) -/
  | written (hw : Writes s n) (hi : s.implemented n = true) (v : Word)
      (h : u.wcrAt n = ⟨.held (storeValue s.cfg v), (s.wcrAt n).stale ++ [(s.wcrAt n).contents]⟩)
  /-- a Cold reset (R90) -/
  | coldReset (hw : Writes s n) (hi : s.implemented n = true) (h : u.wcrAt n = ⟨.unknown, []⟩)

theorem runEvent_wcrStep {s u : State} {e : Event} {rest : List Event} (hs : s.schedule = e :: rest)
    (he : e ≠ .execute) (h : runEvent e (s.withSchedule rest) = .next u) (n : Fin 16) : WcrStep s u n := by
  cases e with
  | execute => exact absurd rfl he
  | coldReset =>
    cases h
    cases hi : s.implemented n with
    | true => exact .coldReset (.inr (.inr (by simp [hs]))) hi (by simp [hi])
    | false => exact .kept (by simp [hi])
  | otherWrite path m v =>
    obtain ⟨-, hi, rfl⟩ := otherWrite_next h
    by_cases hm : m = n
    · subst hm
      exact .written (.inr (.inl ⟨path, v, by simp [hs]⟩)) hi v (by simp)
    · exact .kept (by simp [hm])
  | synchronise m =>
    cases h
    by_cases hm : m = n
    · exact .synchronised (by simp [hm])
    · exact .kept (by simp [hm])
  | warmReset | dataAccess | setInputs | setWvr | setX | setPc =>
    cases h
    exact .kept rfl

theorem step_wcrStep {s u : State} (h : step s = .next u) (n : Fin 16) : WcrStep s u n := by
  obtain ⟨i, es, t, hi, hexec, rfl⟩ | ⟨e, rest, hs, he, hrun⟩ := step_next_current h
  · obtain hkept | ⟨hread, hn, himpl, v, hv⟩ := exec_wcrAt hexec n
    · exact .kept hkept
    · exact .written (.inl ⟨i, hi, hread, hn⟩) himpl v hv
  · exact runEvent_wcrStep hs he hrun n

/-- Where no other value waits to be matched, a step that is no write leaves the register as it was. -/
theorem WcrStep.wcrAt_of_not_writes {s u : State} {n : Fin 16} (h : WcrStep s u n) (hw : ¬ Writes s n)
    (hs : (s.wcrAt n).stale = []) : u.wcrAt n = s.wcrAt n := by
  cases h with
  | kept h => exact h
  | synchronised h => rw [h, ← hs]
  | written hw' => exact absurd hw' hw
  | coldReset hw' => exact absurd hw' hw

/-- What may govern matching after a step: what could before, a value that `StoreValue` left, or UNKNOWN contents. -/
theorem WcrStep.mem_candidates {s u : State} {n : Fin 16} (h : WcrStep s u n) {c : Contents}
    (hc : c ∈ (u.wcrAt n).candidates) :
    c ∈ (s.wcrAt n).candidates ∨ (∃ v, c = .held (storeValue s.cfg v)) ∨ c = .unknown := by
  cases h with
  | kept h => exact .inl (h ▸ hc)
  | synchronised h =>
    rw [h, Wcr.candidates, List.mem_singleton] at hc
    exact .inl (hc ▸ List.mem_cons_self)
  | written _ _ v h =>
    rw [h] at hc
    simp only [Wcr.candidates, List.mem_cons, List.mem_append, List.not_mem_nil, or_false] at hc ⊢
    obtain hnew | hstale | hold := hc
    · exact .inr (.inl ⟨v, hnew⟩)
    · exact .inl (.inr hstale)
    · exact .inl (.inl hold)
  | coldReset _ _ h =>
    rw [h, Wcr.candidates, List.mem_singleton] at hc
    exact .inr (.inr hc)

/-- The storage of an unimplemented watchpoint is never written (R10). -/
theorem WcrStep.unimplemented {s u : State} {n : Fin 16} (h : WcrStep s u n) (hi : s.implemented n = false)
    (hs : s.wcrAt n = ⟨.unknown, []⟩) : u.wcrAt n = ⟨.unknown, []⟩ := by
  cases h with
  | kept h => rw [h, hs]
  | synchronised h => rw [h, hs]
  | written _ hi' => simp [hi] at hi'
  | coldReset _ _ h => exact h

theorem runEvent_readX {e : Event} {s u : State} (he : e ≠ .execute) (h : runEvent e s = .next u) (t : Fin 15) :
    u.readX t = s.readX t ∨ ∃ v, e = .setX t v := by
  cases e with
  | execute => exact absurd rfl he
  | setX r v =>
    cases h
    by_cases hr : r = t
    · exact .inr ⟨v, by rw [hr]⟩
    · exact .inl (by simp [hr])
  | otherWrite path m v =>
    obtain ⟨-, -, rfl⟩ := otherWrite_next h
    exact .inl rfl
  | coldReset | warmReset | synchronise | dataAccess | setInputs | setWvr | setPc =>
    cases h
    exact .inl rfl

/-- A data access makes the report of R85; no other step makes one. -/
theorem step_report {s u : State} (h : step s = .next u) :
    (u.report = s.report ∧ ∀ a, s.schedule.head? ≠ some (.dataAccess a)) ∨
    ∃ a, s.schedule.head? = some (.dataAccess a) ∧ u.report = some (s.reportOn a) := by
  obtain ⟨s₀, w, i, t, hs, -, -, hexec, rfl⟩ | ⟨e, rest, hs, he, hrun⟩ := step_next h
  · obtain ⟨hs, rfl⟩ | ⟨rest, hs, rfl⟩ := hs <;>
      exact .inl ⟨by simp [exec_report hexec], by simp [hs]⟩
  · cases e with
    | execute => exact absurd rfl he
    | dataAccess a =>
      cases hrun
      exact .inr ⟨a, by simp [hs], rfl⟩
    | otherWrite path m v =>
      obtain ⟨-, -, rfl⟩ := otherWrite_next hrun
      exact .inl ⟨rfl, by simp [hs]⟩
    | coldReset | warmReset | synchronise | setInputs | setWvr | setX | setPc =>
      cases hrun
      exact .inl ⟨rfl, by simp [hs]⟩

/-! ### Matching -/

/-- A written register with no other value waiting gives no match and no event for an access that its value is not
enabled for. -/
theorem noMatch_noEvent {s : State} {a : Access} {n : Fin 16} {c : Word} (hs : s.wcrAt n = ⟨.held c, []⟩)
    (hc : ¬ enabledFor c a) : s.verdictOn a n = .noMatch ∧ n ∉ s.eventsOn a := by
  have hverdict : s.verdictOn a n = .noMatch := by
    unfold State.verdictOn State.evaluate
    split
    · rw [governing_synchronised _ _ (by rw [hs]), hs, contentsValue_held, matchVerdict_storeValue,
        matchVerdict_not_enabled hc]
    · rfl
  exact ⟨hverdict, fun hmem => ((mem_eventsOn s a n).1 hmem).1 hverdict⟩

theorem quiet_iff (s : State) (n : Fin 16) :
    Safety.quiet s n = true ↔ ∃ v, s.wcrAt n = ⟨.held v, []⟩ ∧ eOf v = 0#1 := by
  unfold Safety.quiet
  rcases s.wcrAt n with ⟨_ | v, _ | ⟨c, cs⟩⟩ <;> simp

theorem matchVerdict_of_no_mask {p : MatchParams} {c : Word} (w : Word) (a : Access)
    (h : effectiveMask p.reservedMask (maskOf c) = none) : matchVerdict p c w a = .noMatch := by
  by_cases hen : enabledFor c a
  · rw [matchVerdict_enabled hen, h]
  · exact matchVerdict_not_enabled hen

theorem conjunction_withMask (p : MatchParams) (m : Nat) (c w : Word) (a : Access) (mask : BitVec 5) :
    conjunction p m (withMask c mask) w a = conjunction p m c w a := by
  obtain ⟨-, hwt, hlbn, hssc, hhmc, hbas, -, hpac, -⟩ := fields_withMask c mask
  have hs : stateVerdict p (withMask c mask) a.context = stateVerdict p c a.context := by
    rw [stateVerdict, hssc, hhmc, hpac, stateVerdict]
  have hl : linkVerdict p (withMask c mask) a.context = linkVerdict p c a.context := by
    rw [linkVerdict, hwt, hlbn, linkVerdict]
  unfold conjunction paramRefusals
  rw [hbas, hs, hl]

/-- The MASK field acts through `effectiveMask` alone (R13). -/
theorem matchVerdict_withMask {p : MatchParams} {c : Word} {mask : BitVec 5} (w : Word) (a : Access)
    (h : effectiveMask p.reservedMask (maskOf c) = effectiveMask p.reservedMask mask) :
    matchVerdict p c w a = matchVerdict p (withMask c mask) w a := by
  obtain ⟨hmask, -, -, -, -, -, hlsc, -, he⟩ := fields_withMask c mask
  unfold matchVerdict
  rw [hmask, hlsc, he, h]
  simp only [conjunction_withMask]

/-- The watched bytes of a word address (R22). -/
theorem watches_word_iff {w : Word} (hw : w.getLsbD 2 = true) (bas : BitVec 8) (a : Word) :
    watches bas w a = true ↔ ∃ k : Fin 4, bas.getLsbD k.val = true ∧ a = w + BitVec.ofNat 32 k.val := by
  rw [watches_iff, if_pos hw]
  exact ⟨fun ⟨k, hk, h⟩ => ⟨⟨k, hk⟩, h⟩, fun ⟨k, h⟩ => ⟨k, k.isLt, h⟩⟩

end Sys2Proof.Machine

namespace Sys2Proof.Proofs

open Sys2Proof.Machine Sys2Proof.Claims

/-! ### Every step -/

/-- Settles O51: what may govern a register was there before, is a stored value, or is UNKNOWN; an unimplemented
register stays; the text never changes; a new report lists no event of a false verdict. -/
theorem stepKeepsTheInvariant : Obligations.StepKeepsTheInvariant := by
  intro s u hinv h
  obtain ⟨hres0, himpl, htext, hreport⟩ := hinv
  obtain ⟨hcfg, htextEq⟩ := parametersAndTextNeverChange s u h
  refine ⟨fun n v hstorage hv => ?_, fun n hn => ?_, htextEq ▸ htext, fun r hr n hn => ?_⟩
  · rw [hcfg] at hstorage
    obtain hold | ⟨w, hw⟩ | hunknown := (step_wcrStep h n).mem_candidates hv
    · exact hres0 n v hstorage hold
    · cases hw
      exact storeValue_res0 s.cfg w hstorage
    · cases hunknown
  · have hn' : s.implemented n = false := by rwa [State.implemented, hcfg] at hn
    exact (step_wcrStep h n).unimplemented hn' (himpl n hn')
  · obtain ⟨hsame, -⟩ | ⟨a, -, hnew⟩ := step_report h
    · exact hreport r (hsame ▸ hr) n hn
    · cases hnew.symm.trans hr
      rw [reportOn_verdict]
      exact ((mem_eventsOn s a n).1 hn).1

/-- Settles O53: of the four things a step can do to the register, two keep its contents. -/
theorem onlyWritersChangeARegister : Obligations.OnlyWritersChangeARegister := by
  intro s u n h
  cases step_wcrStep h n with
  | kept h => exact .inl (by rw [h])
  | synchronised h => exact .inl (by rw [h])
  | written hw hi => exact .inr ⟨hw, hi⟩
  | coldReset hw hi => exact .inr ⟨hw, hi⟩

/-- Settles O56: the register stays as it was, and its value with E = 0 is enabled for no access. -/
theorem quietWatchpointStaysQuiet : Obligations.QuietWatchpointStaysQuiet := by
  intro s u n hquiet hw h
  obtain ⟨v, hv, he⟩ := (quiet_iff s n).1 hquiet
  have hkept : u.wcrAt n = s.wcrAt n := (step_wcrStep h n).wcrAt_of_not_writes hw (by rw [hv])
  refine ⟨(quiet_iff u n).2 ⟨v, hkept.trans hv, he⟩, fun a ha => ?_⟩
  obtain ⟨-, hnone⟩ | ⟨b, hb, hreport⟩ := step_report h
  · exact absurd ha (hnone a)
  · cases hb.symm.trans ha
    obtain ⟨hverdict, hevents⟩ := noMatch_noEvent (a := a) hv fun hen => hen.1 he
    exact ⟨_, hreport, by rw [reportOn_verdict, hverdict], hevents⟩

/-- Settles O54: an instruction writes a general register only as the destination of an `MRC`, an event only as
`setX`. -/
theorem onlyMrcOrTheProcessorWritesX : Obligations.OnlyMrcOrTheProcessorWritesX := by
  intro s u t h
  obtain ⟨i, es, t', hi, hexec, rfl⟩ | ⟨e, rest, hs, he, hrun⟩ := step_next_current h
  · obtain hkept | hmrc := exec_readX hexec t
    · exact .inl hkept
    · exact .inr (.inl ⟨i, hi, hmrc⟩)
  · obtain hkept | ⟨v, rfl⟩ := runEvent_readX he hrun t
    · exact .inl hkept
    · exact .inr (.inr ⟨v, by simp [hs]⟩)

/-! ### The register's fields -/

/-- Settles O5: packing is a sum in which every field has a place of its own. -/
theorem fieldsTileTheRegister : Obligations.FieldsTileTheRegister := by
  refine ⟨fun r31 mask r23 wt lbn ssc hmc bas lsc pac e => ⟨?_, ?_⟩, withMask_maskOf, rfl, rfl, by decide, by decide⟩
  · exact pack_toNat r31 mask r23 wt lbn ssc hmc bas lsc pac e
  · exact fields_pack r31 mask r23 wt lbn ssc hmc bas lsc pac e

/-- Settles O6, by the values of `addrMask` and `effectiveMask`. -/
theorem addressMaskValues : Obligations.AddressMaskValues :=
  ⟨rfl, rfl, rfl, fun _ _ h31 => addrMask_toNat h31, fun choice _ h1 h2 => effectiveMask_defined choice h1 h2,
    fun _ h => effectiveMask_reserved h⟩

/-- Settles O7: the carry test accepts the runs of ones within eight bits and nothing else. -/
theorem byteSelectValidity : Obligations.ByteSelectValidity := by
  refine ⟨fun bas => ⟨fun h => ?_, ?_⟩, by decide⟩
  · obtain ⟨L, -, s, -, hrun⟩ := run_of_basValid bas h
    exact ⟨L, s, hrun⟩
  · rintro ⟨L, s, hL, hs, hbas⟩
    have hrun := basValid_of_run L (by omega) s (by omega) hL hs
    rwa [← hbas, BitVec.ofNat_toNat, BitVec.setWidth_eq] at hrun

/-- Settles O26: a read gives a stored value, of what the register holds or of a draw. -/
theorem res0BitsReadAsZero : Obligations.Res0BitsReadAsZero := by
  intro p s n h
  cases hc : (s.wcrAt n).contents with
  | unknown =>
    rw [readPath_unknown p s n hc]
    exact storeValue_res0 s.cfg _ h
  | held v =>
    rw [readPath_held p s n v hc]
    exact storeValue_res0 s.cfg v h

/-- Settles O18: the access proceeds, and reading an UNKNOWN register uses one draw. -/
theorem mrcOfUnknownRegisterDraws : Obligations.MrcOfUnknownRegisterDraws := by
  intro i s t hread hadm hperm himpl hrt hunknown
  have hexec := exec_proceeds ((generalRegister_some _ _).2 hrt) (conditionVerdict_of_admitted hadm)
    (gate_of_permitted himpl hperm)
  rw [if_pos hread, readPath_unknown _ _ _ hunknown] at hexec
  exact ⟨_, _, hexec, Nat.lt_succ_self _, storeValue_res0 s.cfg _⟩

/-! ### The fields in matching -/

/-- Settles O28: a value with E = 0 is enabled for no access. -/
theorem disabledWatchpointIgnoresItsFields : Obligations.DisabledWatchpointIgnoresItsFields := by
  have hdisabled : ∀ (c : Word) (a : Access), eOf c = 0#1 → ¬ enabledFor c a := fun _ _ he ⟨he', _, _⟩ => he' he
  refine ⟨fun p c w a he => matchVerdict_not_enabled (hdisabled c a he),
    fun s a n c hs he => noMatch_noEvent hs (hdisabled c a he), fun p q s n c _ => ?_⟩
  rw [readPath_writePath]
  exact storeValue_and_rwMask s.cfg c

/-- Settles O29: a value with LSC = 0b00 is enabled for no access. -/
theorem reservedLoadStoreControlDisables : Obligations.ReservedLoadStoreControlDisables := by
  have hdisabled : ∀ (c : Word) (a : Access), lscOf c = 0b00#2 → ¬ enabledFor c a :=
    fun _ _ hlsc ⟨_, hlsc', _⟩ => hlsc' hlsc
  refine ⟨fun p c w a hlsc => matchVerdict_not_enabled (hdisabled c a hlsc),
    fun s a n c hs hlsc => noMatch_noEvent hs (hdisabled c a hlsc), fun p q s n c hlsc => ?_⟩
  obtain ⟨-, -, hstored⟩ := fields_storeValue s.cfg c
  rw [readPath_writePath, hstored, hlsc]

/-- Settles O30: the type test of R81 fails. -/
theorem otherAccessTypeNeverMatches : Obligations.OtherAccessTypeNeverMatches := by
  intro p c w a
  refine ⟨fun hlsc hkind => ?_, fun hlsc hkind => ?_⟩
  · exact matchVerdict_not_enabled fun ⟨_, _, htype⟩ => by simp [hlsc, hkind, typeMatch] at htype
  · exact matchVerdict_not_enabled fun ⟨_, _, htype⟩ => by simp [hlsc, hkind, typeMatch] at htype

/-- Settles O32: under each choice the reserved value has the effective mask of the value it stands for. -/
theorem reservedMaskBehavesAsIf : Obligations.ReservedMaskBehavesAsIf := by
  refine ⟨fun p c w a hreserved => ?_, fun p q s n c _ => ?_⟩
  · obtain ⟨hdisabled, hunmasked, hmasked⟩ := effectiveMask_reserved hreserved
    refine ⟨fun hp => ?_, fun hp => ?_, fun k hp => ?_⟩
    · exact matchVerdict_of_no_mask w a (by rw [hp, hdisabled])
    · exact matchVerdict_withMask w a (by rw [hp, hunmasked]; rfl)
    · exact matchVerdict_withMask w a (by rw [hp, hmasked, effectiveMask_ofNat_add_three])
  · obtain ⟨hstored, -, -⟩ := fields_storeValue s.cfg c
    rw [readPath_writePath, hstored]

/-- Settles O34: of a word address only bytes 0 to 3 are watched, and their BAS bits are in `BAS & 0x0F`. -/
theorem wordAddressIgnoresHighByteSelects : Obligations.WordAddressIgnoresHighByteSelects := by
  refine ⟨fun bas w a hw => watches_word_iff hw bas a, fun bas bas' w a hw hbas => ?_, fun p q s n c => ?_⟩
  · have hlow : ∀ k : Fin 4, bas.getLsbD k.val = bas'.getLsbD k.val := by
      intro k
      have hbit := congrArg (·.getLsbD k.val) hbas
      fin_cases k <;> simpa using hbit
    rw [Bool.eq_iff_iff, watches_word_iff hw, watches_word_iff hw]
    simp only [hlow]
  · obtain ⟨-, hstored, -⟩ := fields_storeValue s.cfg c
    rw [readPath_writePath, hstored]

/-- Settles O40: matching reads the RW fields alone. -/
theorem res0BitsDoNotAffectMatching : Obligations.Res0BitsDoNotAffectMatching := by
  intro p c c' w a h
  calc matchVerdict p c w a
      = matchVerdict p (c &&& rwMask) w a := (matchVerdict_rw p c w a).symm
    _ = matchVerdict p (c' &&& rwMask) w a := congrArg (matchVerdict p · w a) h
    _ = matchVerdict p c' w a := matchVerdict_rw p c' w a

/-! ### Resets and the enclosing processor -/

/-- Settles O44: the step is `State.warmReset` on the rest of the schedule. -/
theorem warmResetLeavesEverything : Obligations.WarmResetLeavesEverything := by
  intro s rest h
  exact step_of_event h

/-- Settles O48, event by event. -/
theorem enclosingProcessorChangesOnlyItsOwn : Obligations.EnclosingProcessorChangesOnlyItsOwn := by
  intro s rest e h
  refine ⟨?_, ?_, ?_, ?_⟩
  · rintro i rfl
    exact ⟨_, step_of_event h, rfl, rfl, rfl, rfl⟩
  · rintro n w rfl
    refine ⟨_, step_of_event h, by simp, fun m hm => ?_, rfl, rfl, rfl⟩
    rw [wvrAt_setWvr, if_neg hm.symm]
    rfl
  · rintro t v rfl
    refine ⟨_, step_of_event h, by simp, fun r hr => ?_, rfl, rfl, rfl⟩
    rw [readX_writeX, if_neg hr.symm]
    rfl
  · rintro pc set rfl
    exact ⟨_, step_of_event h, rfl, rfl, rfl, rfl, rfl⟩

/-- Settles O50: with every register UNKNOWN no value is held, and there is neither text nor report. -/
theorem resetRegistersAreUnknown : Obligations.ResetRegistersAreUnknown := by
  have hunknown : ∀ n, State.reset.wcrAt n = ⟨.unknown, []⟩ := by decide
  refine ⟨hunknown, fun n v _ hv => ?_, fun n _ => hunknown n, rfl, fun r hr => ?_⟩
  · simp [hunknown, Wcr.candidates] at hv
  · cases hr

end Sys2Proof.Proofs

/-! The family of spec/20_memory.md: the one storage behind three names (R40, R42, R48), the window of R47, and the half
of the address space that a match stays in (R43). -/

namespace Sys2Proof.Machine

open Sys2Proof.Claims

/-! ### Storage -/

/-- The obligations' name for what a write leaves, and the model's (R64). -/
theorem stored_eq_storeValue (cfg : Config) (v : Word) : Stored cfg v = storeValue cfg v := rfl

/-- A permitted `MRC` of a written register copies the stored value and changes nothing else (R42, R61). -/
theorem exec_read_held {i : Instr} {s : State} {t : Fin 15} {v : Word} (hread : i.isRead = true) (hadm : Admitted i s)
    (hperm : Permitted s) (himpl : s.implemented i.crm = true) (hrt : i.rt.val = t.val)
    (hheld : (s.wcrAt i.crm).contents = .held v) : exec i s = .next (s.writeX t (storeValue s.cfg v)) := by
  rw [exec_proceeds ((generalRegister_some _ _).2 hrt) (conditionVerdict_of_admitted hadm)
    (gate_of_permitted himpl hperm), if_pos hread, readPath_held _ _ _ _ hheld]

section
variable {s : State} {n : Fin 16} (path : OtherPath) (v : Word)

theorem otherWrite_of_implemented (hw : s.cfg.otherWriters = true) (hi : s.implemented n = true) :
    otherWrite path n v s = .next (s.writePath path.toPath n v) :=
  (if_pos hw).trans (if_pos hi)

theorem otherWrite_of_unimplemented (hw : s.cfg.otherWriters = true) (hi : s.implemented n = false) :
    otherWrite path n v s = .refused .otherWriteUnimplemented :=
  (if_pos hw).trans (if_neg (by simp [hi]))

theorem otherWrite_of_excluded (hw : s.cfg.otherWriters = false) :
    otherWrite path n v s = .refused .otherWritersExcluded :=
  if_neg (by simp [hw])

end

/-! ### The verdict on an access -/

theorem verdictOn_unimplemented {s : State} {n : Fin 16} (a : Access) (hi : s.implemented n = false) :
    s.verdictOn a n = .noMatch :=
  evaluate_unimplemented s a _ n hi

/-- The verdict of an implemented watchpoint is on a value that may govern it (R47, D11), for some draw and some choice
for a reserved MASK (D6). -/
theorem verdictOn_implemented {s : State} {n : Fin 16} (a : Access) (hi : s.implemented n = true) :
    ∃ g ∈ (s.wcrAt n).candidates, ∃ (free : Word) (choice : ReservedMaskAs), s.verdictOn a n =
      matchVerdict ⟨Config.stateMatch, Config.linkMatch, choice⟩ (contentsValue s.cfg free g) (s.wvrAt n) a :=
  ⟨_, governing_mem _ _, _, _, if_pos hi⟩

/-- Of a written register whose window is closed, the stored value alone may govern. -/
theorem verdictOn_held {s : State} {n : Fin 16} {v : Word} (a : Access) (hi : s.implemented n = true)
    (hs : s.wcrAt n = ⟨.held v, []⟩) : ∃ choice : ReservedMaskAs, s.verdictOn a n =
      matchVerdict ⟨Config.stateMatch, Config.linkMatch, choice⟩ (storeValue s.cfg v) (s.wvrAt n) a := by
  obtain ⟨g, hg, free, choice, hverdict⟩ := verdictOn_implemented a hi
  rw [hs, Wcr.candidates, List.mem_singleton] at hg
  subst hg
  exact ⟨choice, hverdict⟩

/-! ### The block a match stays in -/

/-- From a word address, the bytes of a word or a double-word stay within one aligned double-word: no carry leaves its
low three bits (R21, R22). -/
theorem watches_same_doubleword {bas : BitVec 8} {w a : Word} (hw : w.toNat % 4 = 0) (h : watches bas w a = true) :
    a.toNat / 2 ^ 3 = w.toNat / 2 ^ 3 := by
  obtain ⟨k, hk, -, rfl⟩ := (watches_iff bas w a).1 h
  have hbit : w.getLsbD 2 = decide (w.toNat / 4 % 2 = 1) := Nat.testBit_eq_decide_div_mod_eq
  have hlt := w.isLt
  rw [BitVec.toNat_add, BitVec.toNat_ofNat]
  by_cases h2 : w.toNat / 4 % 2 = 1
  · simp only [hbit, h2, decide_true, if_true] at hk
    omega
  · simp only [hbit, h2, decide_false, Bool.false_eq_true, if_false] at hk
    omega

/-- A matched access touches a byte of an aligned block around the value register, of at most half the address space. -/
theorem block_of_matched {p : MatchParams} {c w : Word} {a : Access} (h : matchVerdict p c w a = .matched) :
    ∃ b ∈ a.bytes, ∃ m ≤ 31, b.toNat / 2 ^ m = w.toNat / 2 ^ m := by
  obtain ⟨-, m, hm, hconj⟩ := matchVerdict_matched h
  obtain ⟨hrefusals, -, -, haddr⟩ := (conjunction_matched_iff p m c w a).1 hconj
  obtain ⟨b, hb, hmatch⟩ := List.any_eq_true.1 haddr
  obtain rfl | ⟨hm3, hm31⟩ := effectiveMask_range hm
  · obtain ⟨haligned, -, -⟩ := (addrRefusals_eq_nil_iff (Nat.zero_le 31) _ w).1 hrefusals
    exact ⟨b, hb, 3, by decide, watches_same_doubleword haligned hmatch⟩
  · rw [if_neg (by omega)] at hmatch
    exact ⟨b, hb, m, hm31, (inBlock_iff hm31 w b).1 hmatch⟩

/-- Bit 31 is above every block. -/
theorem bit31_of_same_block {w b : Word} {m : Nat} (hm : m ≤ 31) (h : b.toNat / 2 ^ m = w.toNat / 2 ^ m) :
    b.getLsbD 31 = w.getLsbD 31 := by
  have hbit : ∀ x : Word, x.getLsbD 31 = (x.toNat / 2 ^ m).testBit (31 - m) := fun x => by
    rw [Nat.testBit_div_two_pow, Nat.sub_add_cancel hm, BitVec.getLsbD]
  rw [hbit, hbit, h]

end Sys2Proof.Machine

namespace Sys2Proof.Proofs

open Sys2Proof.Machine Sys2Proof.Claims

/-! ### One storage -/

/-- Settles O24: both reads copy the stored value, since the first leaves register, inputs and parameters. -/
theorem repeatedReadsAgree : Obligations.RepeatedReadsAgree := by
  intro i j s t r v hi hj hcrm hadmi hadmj hperm himpl hti hrj hheld
  have hfirst := exec_read_held hi hadmi hperm himpl hti hheld
  rw [hcrm] at himpl hheld
  have hsecond : exec j (s.writeX t (storeValue s.cfg v)) = _ := exec_read_held hj hadmj hperm himpl hrj hheld
  exact ⟨_, _, hfirst, hsecond, by simp⟩

/-- Settles O25: no path is told from another, and a read after a write returns the value stored. -/
theorem threeNamesAreOneStorage : Obligations.ThreeNamesAreOneStorage := by
  intro p q s n v
  rw [readPath_writePath]
  exact ⟨rfl, rfl, storeValue_and_rwMask s.cfg v, fun hstorage => if_pos hstorage⟩

/-- Settles O45: the three cases of `otherWrite`, on the rest of the schedule. -/
theorem otherWritersWriteTheSameStorage : Obligations.OtherWritersWriteTheSameStorage := by
  intro s rest path n v h
  have hstep : step s = otherWrite path n v (s.withSchedule rest) := step_of_event h
  rw [hstep]
  refine ⟨fun hw hi => ?_, fun hw => otherWrite_of_excluded path v hw,
    fun hw hi => otherWrite_of_unimplemented path v hw hi⟩
  refine ⟨_, otherWrite_of_implemented path v hw hi, ?_, fun m hm => ?_, rfl, rfl, rfl, rfl, rfl, rfl, rfl, rfl, rfl⟩
  · simp [stored_eq_storeValue]
  · simp [hm.symm]

/-! ### The window -/

/-- Settles O46: the step is `State.synchronise` on the rest of the schedule. -/
theorem synchronisationClosesTheWindow : Obligations.SynchronisationClosesTheWindow := by
  intro s rest n h
  refine ⟨_, step_of_event h, ?_, ?_, fun m hm => ?_, rfl⟩
  · simp [Wcr.candidates]
  · simp
  · simp [hm.symm]

/-- Settles O47: the step is `State.present` on the rest of the schedule, and its report holds each watchpoint's
verdict. -/
theorem dataAccessIsMatchedOnGoverningValues : Obligations.DataAccessIsMatchedOnGoverningValues := by
  intro s rest a h
  have hverdict : ∀ n, ((s.withSchedule rest).reportOn a).verdicts.get n = s.verdictOn a n := reportOn_verdict _ a
  refine ⟨_, (s.withSchedule rest).reportOn a, step_of_event h, rfl, rfl, rfl, rfl, ?_, fun n hn => ?_, fun n hi => ?_,
    fun n hi => ?_, fun n v hi hs => ?_⟩
  · simp
  · rw [hverdict]
    exact ((mem_eventsOn s a n).1 hn).1
  · rw [hverdict, verdictOn_unimplemented a hi]
  · rw [hverdict]
    exact verdictOn_implemented a hi
  · rw [hverdict]
    exact verdictOn_held a hi hs

/-! ### The address space -/

/-- Settles O36: a match needs a byte in a block around the value register, and no block holds both halves. -/
theorem maskNeverSpansBothHalves : Obligations.MaskNeverSpansBothHalves := by
  intro p c w a hother hmatched
  obtain ⟨b, hb, m, hm, hblock⟩ := block_of_matched hmatched
  exact hother b hb (bit31_of_same_block hm hblock)

end Sys2Proof.Proofs


/-! The family of spec/30_encoding.md: the words of R54 and R55 (R52, R53), and which executions are refused (R36, R57). -/

namespace Sys2Proof.Machine

open Sys2Proof.Claims

/-! ### The decoder and the encoder -/

theorem regNumber_regBits (r : Fin 16) : regNumber (regBits r) = r :=
  Fin.ext (Nat.mod_eq_of_lt r.isLt)

theorem eq_regBits_iff (b : BitVec 4) (r : Fin 16) : b = regBits r ↔ b.toNat = r.val := by
  rw [← BitVec.toNat_inj, regBits, BitVec.toNat_ofNat, Nat.mod_eq_of_lt r.isLt]

theorem regBits_regNumber (b : BitVec 4) : regBits (regNumber b) = b :=
  ((eq_regBits_iff b (regNumber b)).2 rfl).symm

theorem selectorError_eq_none {f : Fields} (h : selectorError f = none) :
    f.coproc = 0b1110#4 ∧ f.opc1 = 0b000#3 ∧ f.crn = 0b0000#4 ∧ f.opc2 = 0b111#3 := by
  unfold selectorError at h
  split_ifs at h with hcoproc hopc1 hcrn hopc2
  simp_all

/-- The ten fields tile the word: each joins those above it. -/
theorem append_fieldsOf (w : Word) :
    (fieldsOf w).cond ++ (fieldsOf w).prefix4 ++ (fieldsOf w).opc1 ++ BitVec.ofBool (fieldsOf w).read ++
      (fieldsOf w).crn ++ (fieldsOf w).rt ++ (fieldsOf w).coproc ++ (fieldsOf w).opc2 ++
      BitVec.ofBool (fieldsOf w).bit4 ++ (fieldsOf w).crm = w := by
  have join {k m n l : Nat} (h : k = l + n) : w.extractLsb' k m ++ w.extractLsb' l n = w.extractLsb' l (m + n) :=
    BitVec.extractLsb'_append_extractLsb'_eq_extractLsb' h
  have bit (k : Nat) : BitVec.ofBool (w.getLsbD k) = w.extractLsb' k 1 := by
    ext i hi
    obtain rfl : i = 0 := by omega
    simp
  simp only [fieldsOf, bit]
  rw [join (show 28 = 24 + 4 from rfl), join (show 24 = 21 + 3 from rfl), join (show 21 = 20 + 1 from rfl),
    join (show 20 = 16 + 4 from rfl), join (show 16 = 12 + 4 from rfl), join (show 12 = 8 + 4 from rfl),
    join (show 8 = 5 + 3 from rfl), join (show 5 = 4 + 1 from rfl), join (show 4 = 0 + 4 from rfl)]
  exact BitVec.extractLsb'_eq_self

/-- A word with the fixed bits of R54 is laid out from its own operands. -/
theorem layout_fieldsOf {w : Word} (hprefix : (fieldsOf w).prefix4 = 0b1110#4) (hbit4 : (fieldsOf w).bit4 = true)
    (hsel : selectorError (fieldsOf w) = none) :
    layout (fieldsOf w).cond (BitVec.ofBool (fieldsOf w).read) (regNumber (fieldsOf w).rt) (regNumber (fieldsOf w).crm)
      = w := by
  obtain ⟨hcoproc, hopc1, hcrn, hopc2⟩ := selectorError_eq_none hsel
  have hword := append_fieldsOf w
  rw [hprefix, hbit4, hcoproc, hopc1, hcrn, hopc2] at hword
  rwa [layout, regBits_regNumber, regBits_regNumber]

/-- Decoding reads back the fields that `encode` laid out; only `cond` = 0b1111 is shut out (R54). -/
theorem decode_encode {i : Instr} (hcond : conditionOf i ≠ .field 0b1111#4) : decode i.set (encode i) = .instr i := by
  cases i with
  | mrcA32 cond rt crm | mcrA32 cond rt crm =>
    have hne : cond ≠ 0b1111#4 := fun h => hcond (congrArg Condition.field h)
    simp [decode, Instr.set, decodeA32, encode, Laws.Selector.layout_fields, selectorError, regNumber_regBits, hne]
  | mrcT32 rt crm | mcrT32 rt crm =>
    simp [decode, Instr.set, decodeT32, encode, Laws.Selector.layout_fields, selectorError, regNumber_regBits]

/-- What the A32 decoder has tested when it accepts (R54). -/
theorem decodeA32_instr {w : Word} {i : Instr} (h : decodeA32 w = .instr i) :
    (fieldsOf w).prefix4 = 0b1110#4 ∧ (fieldsOf w).bit4 = true ∧ selectorError (fieldsOf w) = none ∧
      (fieldsOf w).cond ≠ 0b1111#4 ∧
      i = if (fieldsOf w).read then .mrcA32 (fieldsOf w).cond (regNumber (fieldsOf w).rt) (regNumber (fieldsOf w).crm)
        else .mcrA32 (fieldsOf w).cond (regNumber (fieldsOf w).rt) (regNumber (fieldsOf w).crm) := by
  unfold decodeA32 at h
  cases hsel : selectorError (fieldsOf w) with
  | some e =>
    simp only [hsel] at h
    split_ifs at h
  | none =>
    simp only [hsel] at h
    split_ifs at h with hfixed hcond hread <;> cases h <;> simp_all

/-- What the T32 decoder has tested when it accepts (R55). -/
theorem decodeT32_instr {w : Word} {i : Instr} (h : decodeT32 w = .instr i) :
    (fieldsOf w).prefix4 = 0b1110#4 ∧ (fieldsOf w).bit4 = true ∧ selectorError (fieldsOf w) = none ∧
      (fieldsOf w).cond = 0b1110#4 ∧
      i = if (fieldsOf w).read then .mrcT32 (regNumber (fieldsOf w).rt) (regNumber (fieldsOf w).crm)
        else .mcrT32 (regNumber (fieldsOf w).rt) (regNumber (fieldsOf w).crm) := by
  unfold decodeT32 at h
  cases hsel : selectorError (fieldsOf w) with
  | some e =>
    simp only [hsel] at h
    split_ifs at h
  | none =>
    simp only [hsel] at h
    split_ifs at h with hfixed hread <;> cases h <;> simp_all

/-- An accepted word has the fixed bits of its layout, and its other bits are the operands. -/
theorem encode_of_decode {set : InstrSet} {w : Word} {i : Instr} (h : decode set w = .instr i) :
    i.set = set ∧ conditionOf i ≠ .field 0b1111#4 ∧ encode i = w := by
  cases set with
  | a32 =>
    obtain ⟨hprefix, hbit4, hsel, hcond, rfl⟩ := decodeA32_instr h
    have hword := layout_fieldsOf hprefix hbit4 hsel
    cases hread : (fieldsOf w).read <;> rw [hread] at hword <;>
      exact ⟨rfl, fun h => hcond (Condition.field.inj h), hword⟩
  | t32 =>
    obtain ⟨hprefix, hbit4, hsel, hcond, rfl⟩ := decodeT32_instr h
    have hword := layout_fieldsOf hprefix hbit4 hsel
    rw [hcond] at hword
    cases hread : (fieldsOf w).read <;> rw [hread] at hword <;> exact ⟨rfl, Condition.noConfusion, hword⟩

/-- What the decoder accepts, and as what: exactly the words of `encode`. -/
theorem decode_eq_instr_iff {set : InstrSet} {w : Word} {i : Instr} :
    decode set w = .instr i ↔ i.set = set ∧ conditionOf i ≠ .field 0b1111#4 ∧ encode i = w := by
  refine ⟨encode_of_decode, ?_⟩
  rintro ⟨rfl, hcond, rfl⟩
  exact decode_encode hcond

/-! ### The words of the opcode table -/

/-- A word cut where the masks of R54 and R55 change: `cond`, the fixed bits 27:16, `Rt`, the fixed bits 11:4, `CRm`. -/
def blocks (cond : BitVec 4) (high : BitVec 12) (rt : BitVec 4) (low : BitVec 8) (crm : BitVec 4) : Word :=
  cond ++ high ++ rt ++ low ++ crm

section
variable (cond : BitVec 4) (high : BitVec 12) (rt : BitVec 4) (low : BitVec 8) (crm : BitVec 4)

theorem blocks_toNat : (blocks cond high rt low crm).toNat =
    cond.toNat * 2 ^ 28 + high.toNat * 2 ^ 16 + rt.toNat * 2 ^ 12 + low.toNat * 2 ^ 4 + crm.toNat := by
  unfold blocks
  simp only [toNat_append_eq_add]
  ring

theorem blocks_operands : (blocks cond high rt low crm).toNat / 2 ^ 28 = cond.toNat ∧
    (blocks cond high rt low crm).toNat / 2 ^ 12 % 16 = rt.toNat ∧
    (blocks cond high rt low crm).toNat % 16 = crm.toNat := by
  rw [blocks_toNat]
  omega

theorem blocks_inj (cond' : BitVec 4) (high' : BitVec 12) (rt' : BitVec 4) (low' : BitVec 8) (crm' : BitVec 4) :
    blocks cond high rt low crm = blocks cond' high' rt' low' crm' ↔
      cond = cond' ∧ high = high' ∧ rt = rt' ∧ low = low' ∧ crm = crm' := by
  simp only [← BitVec.toNat_inj, blocks_toNat]
  omega

theorem blocks_and (cond' : BitVec 4) (high' : BitVec 12) (rt' : BitVec 4) (low' : BitVec 8) (crm' : BitVec 4) :
    blocks cond high rt low crm &&& blocks cond' high' rt' low' crm' =
      blocks (cond &&& cond') (high &&& high') (rt &&& rt') (low &&& low') (crm &&& crm') := by
  simp only [blocks, ← BitVec.and_append]

/-- The mask of the A32 rows keeps the fixed bits (R54). -/
theorem blocks_and_maskA32 : blocks cond high rt low crm &&& 0x0FFF0FF0#32 = blocks 0 high 0 low 0 := by
  have hmask : 0x0FFF0FF0#32 = blocks 0 (BitVec.allOnes 12) 0 (BitVec.allOnes 8) 0 := rfl
  simp only [hmask, blocks_and, BitVec.and_allOnes, BitVec.and_zero, BitVec.ofNat_eq_ofNat]

/-- The mask of the T32 rows keeps the bits in the place of `cond` too (R55). -/
theorem blocks_and_maskT32 : blocks cond high rt low crm &&& 0xFFFF0FF0#32 = blocks cond high 0 low 0 := by
  have hmask : 0xFFFF0FF0#32 = blocks (BitVec.allOnes 4) (BitVec.allOnes 12) 0 (BitVec.allOnes 8) 0 := rfl
  simp only [hmask, blocks_and, BitVec.and_allOnes, BitVec.and_zero, BitVec.ofNat_eq_ofNat]

end

theorem exists_blocks (w : Word) : ∃ cond high rt low crm, w = blocks cond high rt low crm := by
  refine ⟨w.extractLsb' 28 4, w.extractLsb' 16 12, w.extractLsb' 12 4, w.extractLsb' 4 8, w.extractLsb' 0 4, ?_⟩
  apply BitVec.eq_of_toNat_eq
  simp only [blocks_toNat, BitVec.extractLsb'_toNat, Nat.shiftRight_eq_div_pow]
  omega

/-- Bits 27:16 of an `MRC` or `MCR`: the second 1110, `opc1`, the direction, `CRn`. -/
def highBits (read : BitVec 1) : BitVec 12 := 0b1110#4 ++ 0b000#3 ++ read ++ 0b0000#4

theorem layout_eq_blocks (cond : BitVec 4) (read : BitVec 1) (rt crm : Fin 16) :
    layout cond read rt crm = blocks cond (highBits read) (regBits rt) 0xEF#8 (regBits crm) := by
  apply BitVec.eq_of_toNat_eq
  simp only [blocks_toNat, layout, highBits, toNat_append_eq_add, BitVec.toNat_ofNat]
  ring

/-- The A32 rows by match and mask (R54). -/
theorem layout_eq_iff_maskA32 (cond : BitVec 4) (read : BitVec 1) (rt crm : Fin 16) (w : Word) :
    layout cond read rt crm = w ↔
      w &&& 0x0FFF0FF0#32 = blocks 0 (highBits read) 0 0xEF#8 0 ∧ w.toNat / 2 ^ 28 = cond.toNat ∧
        w.toNat / 2 ^ 12 % 16 = rt.val ∧ w.toNat % 16 = crm.val := by
  obtain ⟨c, high, r, low, m, rfl⟩ := exists_blocks w
  obtain ⟨hc, hr, hm⟩ := blocks_operands c high r low m
  rw [hc, hr, hm, blocks_and_maskA32, layout_eq_blocks, blocks_inj, blocks_inj, BitVec.toNat_inj, ← eq_regBits_iff,
    ← eq_regBits_iff]
  tauto

/-- The T32 rows by match and mask (R55). -/
theorem layout_eq_iff_maskT32 (read : BitVec 1) (rt crm : Fin 16) (w : Word) :
    layout 0b1110#4 read rt crm = w ↔
      w &&& 0xFFFF0FF0#32 = blocks 0b1110#4 (highBits read) 0 0xEF#8 0 ∧
        w.toNat / 2 ^ 12 % 16 = rt.val ∧ w.toNat % 16 = crm.val := by
  obtain ⟨c, high, r, low, m, rfl⟩ := exists_blocks w
  obtain ⟨-, hr, hm⟩ := blocks_operands c high r low m
  rw [hr, hm, blocks_and_maskT32, layout_eq_blocks, blocks_inj, blocks_inj, ← eq_regBits_iff, ← eq_regBits_iff]
  tauto

/-! ### Refusals -/

theorem exec_of_rt_pc {i : Instr} (s : State) (hrt : i.rt.val = 15) : exec i s = .refused .rtIsPC := by
  have hnone : generalRegister i.rt = none := dif_neg (by omega)
  rw [exec_eq]
  split <;> simp [readAccess, writeAccess, whenAdmitted, hnone]

theorem exec_of_condition_fails {i : Instr} {s : State} (hrt : i.rt.val < 15)
    (hc : conditionVerdict (conditionOf i) s.inp = .fails) : exec i s = .refused .conditionFailed := by
  have hsome : generalRegister i.rt = some ⟨i.rt.val, hrt⟩ := (generalRegister_some _ _).2 rfl
  rw [exec_eq]
  split <;> simp [readAccess, writeAccess, whenAdmitted, hsome, hc]

/-- An admitted access completes or ends in the outcome that its gate raises (R61, R62). -/
theorem exec_of_admitted {i : Instr} {s : State} (h : Admitted i s) :
    (∃ u, exec i s = .next u) ∨ ∃ f, exec i s = .fault f := by
  have ht := (generalRegister_some i.rt ⟨i.rt.val, h.1⟩).2 rfl
  have hc := conditionVerdict_of_admitted h
  cases hg : s.gate i.crm with
  | proceed => exact .inl ⟨_, exec_proceeds ht hc hg⟩
  | raises f => exact .inr ⟨f, exec_raises ht hc hg⟩

end Sys2Proof.Machine

namespace Sys2Proof.Proofs

open Sys2Proof.Machine Sys2Proof.Claims

/-- Settles O2, by `decode_encode` for each constructor. -/
theorem decodeInvertsEncode : Obligations.DecodeInvertsEncode := by
  refine ⟨fun cond rt crm hcond => ?_, fun rt crm => ?_⟩
  · have hfield : Condition.field cond ≠ .field 0b1111#4 := fun h => hcond (Condition.field.inj h)
    exact ⟨decode_eq_instr_iff.2 ⟨rfl, hfield, rfl⟩, decode_eq_instr_iff.2 ⟨rfl, hfield, rfl⟩⟩
  · exact ⟨decode_eq_instr_iff.2 ⟨rfl, Condition.noConfusion, rfl⟩,
      decode_eq_instr_iff.2 ⟨rfl, Condition.noConfusion, rfl⟩⟩

/-- Settles O3: the fields of an accepted word tile it. -/
theorem encodeInvertsDecode : Obligations.EncodeInvertsDecode := by
  intro set w i h
  obtain ⟨hset, -, hword⟩ := encode_of_decode h
  exact ⟨hset, hword⟩

/-- Settles O4: the words that decode are those of `encode`, and these are the words of match and mask. -/
theorem decodeAcceptsExactlyTheTable : Obligations.DecodeAcceptsExactlyTheTable := by
  intro w cond rt crm
  have hA32 (read : BitVec 1) := layout_eq_iff_maskA32 cond read rt crm w
  have hT32 (read : BitVec 1) := layout_eq_iff_maskT32 read rt crm w
  simp only [decode_eq_instr_iff, Instr.set, conditionOf, encode, hA32, hT32, ne_eq, Condition.field.injEq,
    reduceCtorEq, not_false_eq_true, true_and]
  exact ⟨and_left_comm, and_left_comm, Iff.rfl, Iff.rfl⟩

/-- Settles O16: `Rt` is looked at first, then the condition, then the gate, which raises outcomes only. -/
theorem admissionDecidesRefusal : Obligations.AdmissionDecidesRefusal := by
  intro i s
  refine ⟨exec_of_rt_pc s, fun hrt hset hfails => ?_, fun cond rt crm hi hrt halways hne hfails => ?_, fun hadm r hr => ?_⟩
  · refine exec_of_condition_fails hrt ?_
    cases i with
    | mrcA32 | mcrA32 => cases hset
    | mrcT32 | mcrT32 => simp [conditionOf, conditionVerdict, hfails]
  · have hc : conditionVerdict (.field cond) s.inp = .fails := by simp [conditionVerdict, halways, hne, hfails]
    obtain rfl | rfl := hi <;> exact exec_of_condition_fails hrt hc
  · obtain ⟨u, hu⟩ | ⟨f, hf⟩ := exec_of_admitted hadm
    · cases hu.symm.trans hr
    · cases hf.symm.trans hr

/-- Settles O1, word by word. -/
theorem sampleWordsDecode : Obligations.SampleWordsDecode := by
  unfold Obligations.SampleWordsDecode
  decide

end Sys2Proof.Proofs

/-! The family of spec/40_system_register_access.md: what the access check and the gate raise (R60, R63), and what a read
and a write do and leave unchanged (R61, R62, R64, R65). -/

namespace Sys2Proof.Machine

open Sys2Proof.Claims

/-! ### What the access check raises -/

theorem checkHalt_of_halt {i : Inputs} (h : SoftwareAccessHalt i) : checkHalt i = .raises .haltSoftwareAccess :=
  if_pos ((haltCond_iff i).2 h)

theorem checkEL3Trap_of_trap {s : State} (h : EL3Trap s) :
    checkEL3Trap s.cfg.haveEL3 s.inp = .raises (.sysTrapEL3 trapCode) :=
  if_pos ((trapEL3A64_iff s).2 h)

theorem checkEL3Trap_of_not_trap {s : State} (h : ¬ EL3Trap s) : checkEL3Trap s.cfg.haveEL3 s.inp = checkHalt s.inp :=
  if_neg (mt (trapEL3A64_iff s).1 h)

theorem checkEL2Trap_of_trap64 {i : Inputs} (haveEL3 : Bool) (h : EL2Trap64 i) :
    checkEL2Trap haveEL3 i = .raises (.sysTrapEL2 trapCode) :=
  if_pos ((trapEL2A64_iff i).2 h)

/-- The two traps to EL2 exclude each other: EL2 uses AArch64 for one and AArch32 for the other. -/
theorem not_EL2Trap64_of_EL2Trap32 {i : Inputs} (h : EL2Trap32 i) : ¬ EL2Trap64 i := by
  rintro ⟨-, hA64, -⟩
  obtain ⟨-, hA32, -⟩ := h
  cases hA64.symm.trans hA32

theorem checkEL2Trap_of_trap32 {i : Inputs} (haveEL3 : Bool) (h : EL2Trap32 i) :
    checkEL2Trap haveEL3 i = .raises (.hypTrap trapCode) :=
  (if_neg (mt (trapEL2A64_iff i).1 (not_EL2Trap64_of_EL2Trap32 h))).trans (if_pos ((trapEL2A32_iff i).2 h))

theorem checkEL2Trap_of_not_trap {i : Inputs} (haveEL3 : Bool) (h64 : ¬ EL2Trap64 i) (h32 : ¬ EL2Trap32 i) :
    checkEL2Trap haveEL3 i = checkEL3Trap haveEL3 i :=
  (if_neg (mt (trapEL2A64_iff i).1 h64)).trans (if_neg (mt (trapEL2A32_iff i).1 h32))

section
variable {i : Inputs} (haveEL3 : Bool)

theorem accessCheck_el0 (h : i.el = .el0) : accessCheck haveEL3 i = .raises .undefined := by simp [accessCheck, h]

theorem accessCheck_el1 (h : i.el = .el1) : accessCheck haveEL3 i = checkEL2Trap haveEL3 i := by simp [accessCheck, h]

theorem accessCheck_el2 (h : i.el = .el2) : accessCheck haveEL3 i = checkEL3Trap haveEL3 i := by simp [accessCheck, h]

theorem accessCheck_el3 (h : i.el = .el3) : accessCheck haveEL3 i = checkHalt i := by simp [accessCheck, h]

end

/-- The trap to EL3, at the levels and after the tests of R73. -/
theorem accessCheck_of_EL3Trap {s : State} (htrap : EL3Trap s)
    (hel : (s.inp.el = .el1 ∧ ¬ EL2Trap64 s.inp ∧ ¬ EL2Trap32 s.inp) ∨ s.inp.el = .el2) :
    accessCheck s.cfg.haveEL3 s.inp = .raises (.sysTrapEL3 trapCode) := by
  obtain ⟨h1, h64, h32⟩ | h2 := hel
  · rw [accessCheck_el1 _ h1, checkEL2Trap_of_not_trap _ h64 h32, checkEL3Trap_of_trap htrap]
  · rw [accessCheck_el2 _ h2, checkEL3Trap_of_trap htrap]

/-- The halt, at the levels and after the tests of R74. -/
theorem accessCheck_of_halt {s : State} (hhalt : SoftwareAccessHalt s.inp)
    (hel : (s.inp.el = .el1 ∧ ¬ EL2Trap64 s.inp ∧ ¬ EL2Trap32 s.inp ∧ ¬ EL3Trap s) ∨
      (s.inp.el = .el2 ∧ ¬ EL3Trap s) ∨ s.inp.el = .el3) :
    accessCheck s.cfg.haveEL3 s.inp = .raises .haltSoftwareAccess := by
  obtain ⟨h1, h64, h32, htrap⟩ | ⟨h2, htrap⟩ | h3 := hel
  · rw [accessCheck_el1 _ h1, checkEL2Trap_of_not_trap _ h64 h32, checkEL3Trap_of_not_trap htrap, checkHalt_of_halt hhalt]
  · rw [accessCheck_el2 _ h2, checkEL3Trap_of_not_trap htrap, checkHalt_of_halt hhalt]
  · rw [accessCheck_el3 _ h3, checkHalt_of_halt hhalt]

/-! ### An access to an unimplemented watchpoint -/

theorem exec_of_gate_raises {i : Instr} {s : State} {f : Fault} (h : Admitted i s) (hg : s.gate i.crm = .raises f) :
    exec i s = .fault f :=
  exec_raises ((generalRegister_some i.rt ⟨i.rt.val, h.1⟩).2 rfl) (conditionVerdict_of_admitted h) hg

section
variable {i : Instr} {s : State}

theorem exec_ne_next_of_unimplemented (hi : s.implemented i.crm = false) (u : State) : exec i s ≠ .next u := by
  intro h
  obtain ⟨-, -, -, hgate, -⟩ := exec_next h
  obtain ⟨himpl, -⟩ := (gate_proceed_iff s _).1 hgate
  cases hi.symm.trans himpl

/-- Where the check would let it proceed, the access is `Undefined` (R63). -/
theorem exec_unimplemented_of_proceed (hadm : Admitted i s) (hi : s.implemented i.crm = false)
    (hc : accessCheck s.cfg.haveEL3 s.inp = .proceed) : exec i s = .fault .undefined :=
  exec_of_gate_raises hadm (by simp [State.gate, gateChoice, hi, hc])

/-- Where the check raises an outcome, the access ends in `Undefined` or in that outcome (R63, D4). -/
theorem exec_unimplemented_of_raises {f : Fault} (hadm : Admitted i s) (hi : s.implemented i.crm = false)
    (hc : accessCheck s.cfg.haveEL3 s.inp = .raises f) : exec i s = .fault .undefined ∨ exec i s = .fault f := by
  cases hpick : Config.undefinedFirst s.draws with
  | true => exact .inl (exec_of_gate_raises hadm (by simp [State.gate, gateChoice, hi, hc, hpick]))
  | false => exact .inr (exec_of_gate_raises hadm (by simp [State.gate, gateChoice, hi, hc, hpick]))

end

/-! ### What a read and a write do -/

/-- A completed `MRC` writes its general register, after some number of draws (R42, R61). -/
theorem exec_read_next {i : Instr} {s u : State} (hread : i.isRead = true) (h : exec i s = .next u) :
    ∃ (t : Fin 15) (v : Word) (k : Nat), i.rt.val = t.val ∧ u = (s.usedDraws k).writeX t v := by
  obtain ⟨t, ht, -, -, ⟨-, rfl⟩ | ⟨hwrite, -⟩⟩ := exec_next h
  · obtain ⟨k, hk⟩ := readPath_state .aarch32 s i.crm
    exact ⟨t, _, k, (generalRegister_some _ _).1 ht, by rw [hk]⟩
  · cases hread.symm.trans hwrite

/-- A completed `MCR` is the write of its general register to the register it names (R62). -/
theorem exec_write_next {i : Instr} {s u : State} (hwrite : i.isRead = false) (h : exec i s = .next u) :
    ∃ t : Fin 15, i.rt.val = t.val ∧ u = s.writePath .aarch32 i.crm (s.readX t) := by
  obtain ⟨t, ht, -, -, ⟨hread, -⟩ | ⟨-, rfl⟩⟩ := exec_next h
  · cases hread.symm.trans hwrite
  · exact ⟨t, (generalRegister_some _ _).1 ht, rfl⟩

/-- A permitted `MCR` completes (R62). -/
theorem exec_write {i : Instr} {s : State} {t : Fin 15} (hwrite : i.isRead = false) (hadm : Admitted i s)
    (hperm : Permitted s) (himpl : s.implemented i.crm = true) (hrt : i.rt.val = t.val) :
    exec i s = .next (s.writePath .aarch32 i.crm (s.readX t)) := by
  rw [exec_proceeds ((generalRegister_some _ _).2 hrt) (conditionVerdict_of_admitted hadm)
    (gate_of_permitted himpl hperm), if_neg (by simp [hwrite])]

/-- What `StoreValue` leaves in the RES0 bits (R64, D5). -/
theorem storeValue_and_res0Mask (cfg : Config) (v : Word) :
    storeValue cfg v &&& res0Mask = if cfg.res0IsStorage = true then v &&& res0Mask else 0 := by
  cases h : cfg.res0IsStorage with
  | true => simp [storeValue, h]
  | false => exact storeValue_res0 cfg v h

end Sys2Proof.Machine

namespace Sys2Proof.Proofs

open Sys2Proof.Machine Sys2Proof.Claims

/-- Settles O14: the gate of an unimplemented watchpoint never proceeds, and raises `Undefined` or what the check
raises, which the clauses name. -/
theorem unimplementedWatchpointGate : Obligations.UnimplementedWatchpointGate := by
  intro i s hadm hi
  have hraises {f : Fault} (hc : accessCheck s.cfg.haveEL3 s.inp = .raises f) :
      exec i s = .fault .undefined ∨ exec i s = .fault f := exec_unimplemented_of_raises hadm hi hc
  refine ⟨?_, fun hel htrap => ?_, fun hel htrap => ?_, fun htrap hel => ?_, fun hhalt hel => ?_,
    exec_ne_next_of_unimplemented hi⟩
  · rintro (hel | hperm)
    · exact or_self_iff.1 (hraises (accessCheck_el0 _ hel))
    · exact exec_unimplemented_of_proceed hadm hi ((accessCheck_proceed_iff s).2 hperm)
  · exact hraises ((accessCheck_el1 _ hel).trans (checkEL2Trap_of_trap64 _ htrap))
  · exact hraises ((accessCheck_el1 _ hel).trans (checkEL2Trap_of_trap32 _ htrap))
  · exact hraises (accessCheck_of_EL3Trap htrap hel)
  · exact hraises (accessCheck_of_halt hhalt hel)

/-- Settles O17: the read of a held register copies what `StoreValue` makes of it. -/
theorem mrcReadsTheStoredValue : Obligations.MrcReadsTheStoredValue := by
  intro i s t v hread hadm hperm himpl hrt hheld
  exact exec_read_held hread hadm hperm himpl hrt hheld

/-- Settles O19: the write is `State.writePath` of the general register's value. -/
theorem mcrWritesTheWholeRegister : Obligations.McrWritesTheWholeRegister := by
  intro i s t hwrite hadm hperm himpl hrt
  exact exec_write hwrite hadm hperm himpl hrt

/-- Settles O20: the register then holds what `StoreValue` makes of the general register's value. -/
theorem storeValueKeepsEveryField : Obligations.StoreValueKeepsEveryField := by
  intro i s t hwrite hadm hperm himpl hrt
  refine ⟨_, storeValue s.cfg (s.readX t), exec_write hwrite hadm hperm himpl hrt, by simp,
    storeValue_and_rwMask _ _, fun hstorage => ?_, storeValue_res0 _ _⟩
  exact (storeValue_and_res0Mask _ _).trans (if_pos hstorage)

/-- Settles O21: a completed `MRC` is a count of draws and a write of `Rt`. -/
theorem mrcFrame : Obligations.MrcFrame := by
  intro i s u hread h
  obtain ⟨r, v, k, hrt, rfl⟩ := exec_read_next hread h
  refine ⟨fun t ht => ?_, fun _ => rfl, rfl, rfl, rfl, rfl, rfl, rfl, rfl, fun _ => rfl⟩
  have hne : r ≠ t := fun hr => ht (hr ▸ hrt.symm)
  rw [readX_writeX, if_neg hne]
  rfl

/-- Settles O22: a completed `MCR` is a write of the register it names. -/
theorem mcrFrame : Obligations.McrFrame := by
  intro i s u hwrite h
  obtain ⟨r, -, rfl⟩ := exec_write_next hwrite h
  refine ⟨fun n hn => ?_, fun _ => rfl, rfl, rfl, rfl, rfl, rfl, rfl, rfl, rfl, fun _ => rfl⟩
  rw [wcrAt_writePath, if_neg hn.symm]

/-- Settles O23: the write leaves inputs and parameters, so the read proceeds, and copies the value the write held. -/
theorem writeThenReadReturnsTheValue : Obligations.WriteThenReadReturnsTheValue := by
  intro i j s t r hi hj hcrm hadmi hadmj hperm himpl hti hrj
  have hheld : ((s.writePath .aarch32 i.crm (s.readX t)).wcrAt j.crm).contents =
      .held (storeValue s.cfg (s.readX t)) := by simp [hcrm]
  have hread : exec j (s.writePath .aarch32 i.crm (s.readX t)) = _ :=
    exec_read_held hj hadmj hperm (hcrm ▸ himpl) hrj hheld
  refine ⟨_, _, exec_write hi hadmi hperm himpl hti, hread, ?_⟩
  rw [readX_writeX, if_pos rfl, State.writePath_cfg, storeValue_storeValue]
  exact ⟨storeValue_and_rwMask _ _, storeValue_and_res0Mask _ _⟩

end Sys2Proof.Proofs

/-! The family of spec/60_exceptions.md: which outcome an access ends in (R70 to R76, R87), and when a watchpoint
matches or is refused (R78 to R84). -/

namespace Sys2Proof.Machine

open Sys2Proof.Claims

/-! ### The outcome of the access check -/

/-- The columns of R75, outcome by outcome: when the access check raises it, by the rules R70 to R74. -/
inductive RaisedBy (s : State) : Fault → Prop
  /-- R70 -/
  | undefined (hel : s.inp.el = .el0) : RaisedBy s .undefined
  /-- R71 -/
  | sysTrapEL2 (hel : s.inp.el = .el1) (htrap : EL2Trap64 s.inp) : RaisedBy s (.sysTrapEL2 trapCode)
  /-- R72 -/
  | hypTrap (hel : s.inp.el = .el1) (htrap : EL2Trap32 s.inp) : RaisedBy s (.hypTrap trapCode)
  /-- R73 -/
  | sysTrapEL3 (htrap : EL3Trap s)
      (hel : (s.inp.el = .el1 ∧ ¬ EL2Trap64 s.inp ∧ ¬ EL2Trap32 s.inp) ∨ s.inp.el = .el2) :
      RaisedBy s (.sysTrapEL3 trapCode)
  /-- R74 -/
  | halt (hhalt : SoftwareAccessHalt s.inp)
      (hel : (s.inp.el = .el1 ∧ ¬ EL2Trap64 s.inp ∧ ¬ EL2Trap32 s.inp ∧ ¬ EL3Trap s) ∨
        (s.inp.el = .el2 ∧ ¬ EL3Trap s) ∨ s.inp.el = .el3) :
      RaisedBy s .haltSoftwareAccess

theorem checkHalt_raises {i : Inputs} {f : Fault} (h : checkHalt i = .raises f) :
    SoftwareAccessHalt i ∧ f = .haltSoftwareAccess := by
  unfold checkHalt at h
  split at h
  · cases h
    exact ⟨(haltCond_iff i).1 ‹_›, rfl⟩
  · cases h

theorem checkEL3Trap_raises {s : State} {f : Fault} (h : checkEL3Trap s.cfg.haveEL3 s.inp = .raises f) :
    (EL3Trap s ∧ f = .sysTrapEL3 trapCode) ∨
    (¬ EL3Trap s ∧ SoftwareAccessHalt s.inp ∧ f = .haltSoftwareAccess) := by
  by_cases htrap : EL3Trap s
  · cases (checkEL3Trap_of_trap htrap).symm.trans h
    exact .inl ⟨htrap, rfl⟩
  · rw [checkEL3Trap_of_not_trap htrap] at h
    exact .inr ⟨htrap, checkHalt_raises h⟩

theorem checkEL2Trap_raises {i : Inputs} {haveEL3 : Bool} {f : Fault} (h : checkEL2Trap haveEL3 i = .raises f) :
    (EL2Trap64 i ∧ f = .sysTrapEL2 trapCode) ∨ (EL2Trap32 i ∧ f = .hypTrap trapCode) ∨
    (¬ EL2Trap64 i ∧ ¬ EL2Trap32 i ∧ checkEL3Trap haveEL3 i = .raises f) := by
  by_cases h64 : EL2Trap64 i
  · cases (checkEL2Trap_of_trap64 haveEL3 h64).symm.trans h
    exact .inl ⟨h64, rfl⟩
  by_cases h32 : EL2Trap32 i
  · cases (checkEL2Trap_of_trap32 haveEL3 h32).symm.trans h
    exact .inr (.inl ⟨h32, rfl⟩)
  · rw [checkEL2Trap_of_not_trap haveEL3 h64 h32] at h
    exact .inr (.inr ⟨h64, h32, h⟩)

/-- The access check raises what R75 names and nothing else. -/
theorem accessCheck_raises_iff (s : State) (f : Fault) :
    accessCheck s.cfg.haveEL3 s.inp = .raises f ↔ RaisedBy s f := by
  constructor
  · intro h
    cases hel : s.inp.el with
    | el0 =>
      cases (accessCheck_el0 _ hel).symm.trans h
      exact .undefined hel
    | el1 =>
      rw [accessCheck_el1 _ hel] at h
      obtain ⟨htrap, rfl⟩ | ⟨htrap, rfl⟩ | ⟨h64, h32, h⟩ := checkEL2Trap_raises h
      · exact .sysTrapEL2 hel htrap
      · exact .hypTrap hel htrap
      · obtain ⟨htrap, rfl⟩ | ⟨htrap, hhalt, rfl⟩ := checkEL3Trap_raises h
        · exact .sysTrapEL3 htrap (.inl ⟨hel, h64, h32⟩)
        · exact .halt hhalt (.inl ⟨hel, h64, h32, htrap⟩)
    | el2 =>
      rw [accessCheck_el2 _ hel] at h
      obtain ⟨htrap, rfl⟩ | ⟨htrap, hhalt, rfl⟩ := checkEL3Trap_raises h
      · exact .sysTrapEL3 htrap (.inr hel)
      · exact .halt hhalt (.inr (.inl ⟨hel, htrap⟩))
    | el3 =>
      rw [accessCheck_el3 _ hel] at h
      obtain ⟨hhalt, rfl⟩ := checkHalt_raises h
      exact .halt hhalt (.inr (.inr hel))
  · intro h
    cases h with
    | undefined hel => exact accessCheck_el0 _ hel
    | sysTrapEL2 hel htrap => exact (accessCheck_el1 _ hel).trans (checkEL2Trap_of_trap64 _ htrap)
    | hypTrap hel htrap => exact (accessCheck_el1 _ hel).trans (checkEL2Trap_of_trap32 _ htrap)
    | sysTrapEL3 htrap hel => exact accessCheck_of_EL3Trap htrap hel
    | halt hhalt hel => exact accessCheck_of_halt hhalt hel

/-! ### The outcome of an access -/

/-- A non-completing outcome is the gate's. -/
theorem gate_of_exec_fault {i : Instr} {s : State} {f : Fault} (h : exec i s = .fault f) :
    s.gate i.crm = .raises f := by
  obtain ⟨t, ht, hc⟩ | ⟨r, hr⟩ := exec_cases i s
  · cases hg : s.gate i.crm with
    | proceed => cases (exec_proceeds ht hc hg).symm.trans h
    | raises o =>
      cases (exec_raises ht hc hg).symm.trans h
      rfl
  · cases hr.symm.trans h

/-- A trap or a halt is raised by the access check: the gate adds `Undefined` alone (R63). -/
theorem raisedBy_of_exec_fault {i : Instr} {s : State} {f : Fault} (h : exec i s = .fault f) (hf : f ≠ .undefined) :
    RaisedBy s f := by
  obtain hcheck | ⟨hundefined, -⟩ := gate_raises (gate_of_exec_fault h)
  · exact (accessCheck_raises_iff s f).1 hcheck
  · exact absurd hundefined hf

section
variable {i : Instr} {s : State}

theorem exec_of_raisedBy {f : Fault} (hadm : Admitted i s) (himpl : s.implemented i.crm = true) (h : RaisedBy s f) :
    exec i s = .fault f :=
  exec_of_gate_raises hadm ((gate_implemented himpl).trans ((accessCheck_raises_iff s f).2 h))

theorem exec_of_gate_proceeds (hadm : Admitted i s) (hg : s.gate i.crm = .proceed) : ∃ u, exec i s = .next u :=
  ⟨_, exec_proceeds ((generalRegister_some i.rt ⟨i.rt.val, hadm.1⟩).2 rfl) (conditionVerdict_of_admitted hadm) hg⟩

theorem exec_of_permitted (hadm : Admitted i s) (himpl : s.implemented i.crm = true) (hperm : Permitted s) :
    ∃ u, exec i s = .next u :=
  exec_of_gate_proceeds hadm (gate_of_permitted himpl hperm)

theorem exec_next_iff_gate (hadm : Admitted i s) : (∃ u, exec i s = .next u) ↔ s.gate i.crm = .proceed := by
  refine ⟨fun ⟨u, hu⟩ => ?_, exec_of_gate_proceeds hadm⟩
  obtain ⟨-, -, -, hg, -⟩ := exec_next hu
  exact hg

theorem exec_fault_iff_gate (hadm : Admitted i s) (f : Fault) : exec i s = .fault f ↔ s.gate i.crm = .raises f :=
  ⟨gate_of_exec_fault, exec_of_gate_raises hadm⟩

end

/-! ### Executing again -/

theorem readPath_withSchedule (p : AccessPath) (s : State) (es : List Event) (n : Fin 16) :
    (s.withSchedule es).readPath p n = ((s.readPath p n).1, (s.readPath p n).2.withSchedule es) := by
  cases h : (s.wcrAt n).contents with
  | unknown => rw [readPath_unknown p s n h, readPath_unknown p (s.withSchedule es) n h]; rfl
  | held v => rw [readPath_held p s n v h, readPath_held p (s.withSchedule es) n v h]; rfl

theorem core_run_two {s t u : State} (h : step s = .next t) (h' : step t = .next u) :
    Sys2Proof.core.run 2 s = .next u := by
  have hfirst : Sys2Proof.core.step s = .next t := h
  have hsecond : Sys2Proof.core.step t = .next u := h'
  simp only [Host.Core.run, hfirst, hsecond]

section
variable {i : Instr} {s : State}

/-- What a completed instruction leaves of the enclosing processor's state (R35, R36). -/
theorem exec_keeps_processor {u : State} (h : exec i s = .next u) :
    u.inp = s.inp ∧ u.wvr = s.wvr ∧ u.pc = s.pc := by
  obtain ⟨t, -, -, -, ⟨-, rfl⟩ | ⟨-, rfl⟩⟩ := exec_next h
  · obtain ⟨k, hk⟩ := readPath_state .aarch32 s i.crm
    simp [hk]
  · simp

/-- What a completed `MRC` delivers (R61). -/
theorem exec_read_readX {u : State} {t : Fin 15} (hread : i.isRead = true) (hrt : i.rt.val = t.val)
    (h : exec i s = .next u) : u.readX t = (s.readPath .aarch32 i.crm).1 := by
  obtain ⟨r, hr, -, -, ⟨-, rfl⟩ | ⟨hwrite, -⟩⟩ := exec_next h
  · cases ((generalRegister_some _ _).2 hrt).symm.trans hr
    simp
  · cases hread.symm.trans hwrite

/-- An instruction neither reads nor changes what is scheduled after it. -/
theorem exec_withSchedule {u : State} (es : List Event) (h : exec i s = .next u) :
    exec i (s.withSchedule es) = .next (u.withSchedule es) := by
  obtain ⟨t, ht, hc, hg, hu⟩ := exec_next h
  rw [exec_proceeds (s := s.withSchedule es) ht hc hg, readPath_withSchedule]
  obtain ⟨hread, rfl⟩ | ⟨hwrite, rfl⟩ := hu
  · rw [if_pos hread]; rfl
  · rw [if_neg (by simp [hwrite])]; rfl

/-- The enclosing processor changes the inputs and executes: the instruction runs under the new inputs, and the next in
program order follows. -/
theorem run_setInputs_execute {w : Word} {inp : Inputs} {u : State} (hf : s.fetch = some w)
    (hd : decode s.iset w = .instr i) (h : exec i (s.withInputs inp) = .next u) :
    Sys2Proof.core.run 2 (s.withSchedule [.setInputs inp, .execute]) = .next (u.withSchedule []).advance := by
  have hinputs : step (s.withSchedule [.setInputs inp, .execute]) =
      .next ((s.withInputs inp).withSchedule [.execute]) := rfl
  refine core_run_two hinputs ?_
  have hexecute : step ((s.withInputs inp).withSchedule [.execute]) =
      continueAfter (exec i ((s.withInputs inp).withSchedule [])) := runInstruction_of_instr hf hd
  rw [hexecute, exec_withSchedule [] h]
  rfl

end

/-! ### The conditions of a match -/

theorem armed_iff_enabledFor (c : Word) (a : Access) : Armed c a ↔ enabledFor c a := by
  have table : ∀ (e : BitVec 1) (lsc : BitVec 2),
      ((e = 1#1 ∧ (lsc = 0b01#2 ∨ lsc = 0b11#2)) ↔ (e ≠ 0#1 ∧ lsc ≠ 0b00#2 ∧ lsc.getLsbD 0 = true)) ∧
      ((e = 1#1 ∧ (lsc = 0b10#2 ∨ lsc = 0b11#2)) ↔ (e ≠ 0#1 ∧ lsc ≠ 0b00#2 ∧ lsc.getLsbD 1 = true)) := by
    decide
  obtain ⟨hload, hstore⟩ := table (eOf c) (lscOf c)
  unfold Armed enabledFor typeMatch
  cases a.kind with
  | load => simpa using hload
  | store => simpa using hstore

theorem linkVerdict_eq_yes_iff (p : MatchParams) (c : Word) (ctx : Context) :
    linkVerdict p c ctx = .yes ↔ wtOf c = 0#1 ∨ p.linkMatch (lbnOf c) ctx = .yes := by
  unfold linkVerdict
  split <;> simp [*]

theorem linkVerdict_eq_reserved_iff (p : MatchParams) (c : Word) (ctx : Context) :
    linkVerdict p c ctx = .reserved ↔ wtOf c = 1#1 ∧ p.linkMatch (lbnOf c) ctx = .reserved := by
  have hbit : ∀ b : BitVec 1, b ≠ 0#1 → b = 1#1 := by decide
  unfold linkVerdict
  split
  · simp [*]
  · simp [hbit (wtOf c) ‹_›]

theorem paramRefusals_eq_nil_iff (p : MatchParams) (c : Word) (ctx : Context) :
    paramRefusals p c ctx = [] ↔ stateVerdict p c ctx ≠ .reserved ∧ linkVerdict p c ctx ≠ .reserved := by
  unfold paramRefusals
  split <;> split <;> simp [*]

theorem paramsHold_iff (p : MatchParams) (c : Word) (ctx : Context) :
    ParamsHold p c ctx ↔ stateVerdict p c ctx = .yes ∧ linkVerdict p c ctx = .yes := by
  rw [linkVerdict_eq_yes_iff]
  rfl

/-- The refusal of D9. -/
theorem maskWithBAS_mem_addrRefusals {m : Nat} {bas : BitVec 8} {w : Word} (h3 : 3 ≤ m) (h31 : m ≤ 31)
    (h : bas ≠ 0xFF#8 ∨ w.toNat % 2 ^ m ≠ 0) : MatchRefusal.maskWithBAS ∈ addrRefusals m bas w := by
  have hfails : ¬ (m = 0 ∨ (bas = 0xFF#8 ∧ w &&& addrMask m = 0)) := by
    rw [and_addrMask_eq_zero_iff h31]
    rintro (rfl | ⟨hbas, hw⟩)
    · omega
    · exact h.elim (· hbas) (· hw)
  simp only [addrRefusals, if_neg hfails, List.mem_append, List.mem_singleton, or_true]

/-! ### The address match as arithmetic -/

/-- From a word address the sum of R79 does not wrap: the watched bytes are in the double-word that holds it. -/
theorem watches_iff_toNat {w : Word} (hw : w.toNat % 4 = 0) (bas : BitVec 8) (a : Word) :
    watches bas w a = true ↔
      ∃ k, k < (if w.getLsbD 2 then 4 else 8) ∧ bas.getLsbD k = true ∧ a.toNat = w.toNat + k := by
  have hsum (k : Nat) : (w + BitVec.ofNat 32 k).toNat = (w.toNat + k) % 2 ^ 32 := by simp
  constructor
  · intro h
    have hdoubleword := watches_same_doubleword hw h
    obtain ⟨k, hk, hbas, rfl⟩ := (watches_iff bas w a).1 h
    have hk8 : k < 8 := hk.trans_le (by split <;> decide)
    rw [hsum] at hdoubleword
    exact ⟨k, hk, hbas, by rw [hsum]; omega⟩
  · rintro ⟨k, hk, hbas, ha⟩
    refine (watches_iff bas w a).2 ⟨k, hk, hbas, BitVec.eq_of_toNat_eq ?_⟩
    rw [hsum, ← ha, Nat.mod_eq_of_lt a.isLt]

theorem addrMatch_unmasked_iff {w : Word} (hw : w.toNat % 4 = 0) (bas : BitVec 8) (bytes : List Word) :
    addrMatch 0 bas w bytes = true ↔
      ∃ b ∈ bytes, ∃ k, k < (if w.getLsbD 2 then 4 else 8) ∧ bas.getLsbD k = true ∧ b.toNat = w.toNat + k := by
  simp only [addrMatch, if_true, List.any_eq_true, watches_iff_toNat hw]

theorem addrMatch_masked_iff {m : Nat} (h3 : 3 ≤ m) (h31 : m ≤ 31) (bas : BitVec 8) (w : Word) (bytes : List Word) :
    addrMatch m bas w bytes = true ↔ ∃ b ∈ bytes, b.toNat / 2 ^ m = w.toNat / 2 ^ m := by
  have hm : m ≠ 0 := by omega
  simp only [addrMatch, if_neg hm, List.any_eq_true, inBlock_iff h31]

/-- More bytes touched, more matches (D21). -/
theorem addrMatch_mono {m : Nat} {bas : BitVec 8} {w : Word} {bytes bytes' : List Word}
    (hsub : ∀ x ∈ bytes, x ∈ bytes') (h : addrMatch m bas w bytes = true) : addrMatch m bas w bytes' = true := by
  obtain ⟨b, hb, hmatch⟩ := List.any_eq_true.1 h
  exact List.any_eq_true.2 ⟨b, hsub b hb, hmatch⟩

/-! ### The verdict -/

/-- An enabled watchpoint with a mask in force answers the conjunction of R78. -/
theorem matchVerdict_eq_conjunction {p : MatchParams} {c : Word} {a : Access} {m : Nat} (w : Word)
    (hen : enabledFor c a) (hm : effectiveMask p.reservedMask (maskOf c) = some m) :
    matchVerdict p c w a = conjunction p m c w a := by
  rw [matchVerdict_enabled hen, hm]

/-- With nothing to refuse and the parameters in favour, the address decides. -/
theorem conjunction_of_addrMatch {p : MatchParams} {m : Nat} {c w : Word} {a : Access}
    (hrefusals : addrRefusals m (basOf c) w = []) (hparams : ParamsHold p c a.context) :
    (conjunction p m c w a = .matched ↔ addrMatch m (basOf c) w a.bytes = true) ∧
    (conjunction p m c w a = .matched ∨ conjunction p m c w a = .noMatch) := by
  obtain ⟨hs, hl⟩ := (paramsHold_iff p c a.context).1 hparams
  have hparamRefusals : paramRefusals p c a.context = [] := (paramRefusals_eq_nil_iff p c _).2 (by simp [hs, hl])
  refine ⟨by simp [conjunction_matched_iff, hrefusals, hs, hl], ?_⟩
  cases h : conjunction p m c w a with
  | noMatch => exact .inr rfl
  | matched => exact .inl rfl
  | refused rs =>
    obtain ⟨hrs, hne⟩ := (conjunction_refused_iff p m c w a rs).1 h
    exact absurd (by rw [← hrs, hrefusals, hparamRefusals]; rfl) hne

/-- The conjunction is refused exactly when one of its parts is. -/
theorem conjunction_refused_iff_refusals (p : MatchParams) (m : Nat) (c w : Word) (a : Access) :
    (∃ rs, conjunction p m c w a = .refused rs) ↔
      ¬ (addrRefusals m (basOf c) w = [] ∧ paramRefusals p c a.context = []) := by
  simp only [conjunction_refused_iff, exists_eq_left', ne_eq, List.append_eq_nil_iff]

/-- What of parameters and control word the verdict depends on. -/
theorem matchVerdict_congr {p p' : MatchParams} {c c' : Word} (w : Word) {a : Access} (he : eOf c = eOf c')
    (hlsc : lscOf c = lscOf c') (hbas : basOf c = basOf c')
    (hmask : effectiveMask p.reservedMask (maskOf c) = effectiveMask p'.reservedMask (maskOf c'))
    (hs : stateVerdict p c a.context = stateVerdict p' c' a.context)
    (hl : linkVerdict p c a.context = linkVerdict p' c' a.context) :
    matchVerdict p c w a = matchVerdict p' c' w a := by
  have hconj : ∀ m, conjunction p m c w a = conjunction p' m c' w a := fun m => by
    unfold conjunction paramRefusals
    rw [hbas, hs, hl]
  unfold matchVerdict
  rw [he, hlsc, hmask]
  simp only [hconj]

end Sys2Proof.Machine

namespace Sys2Proof.Proofs

open Sys2Proof.Machine Sys2Proof.Claims

/-! ### Outcomes -/

/-- Settles O9: an outcome is raised as `RaisedBy` says, and what no test stops is permitted. -/
theorem outcomePriority : Obligations.OutcomePriority := by
  intro i s hadm himpl
  have hraised {f : Fault} (h : RaisedBy s f) : exec i s = .fault f := exec_of_raisedBy hadm himpl h
  have hcompletes (h : Permitted s) : ∃ u, exec i s = .next u := exec_of_permitted hadm himpl h
  refine ⟨fun hel => hraised (.undefined hel), fun hel => ⟨?_, ?_, ?_, ?_, ?_⟩, fun hel => ⟨?_, ?_, ?_⟩,
    fun hel => ⟨?_, ?_⟩⟩
  · exact fun h64 => hraised (.sysTrapEL2 hel h64)
  · exact fun _ h32 => hraised (.hypTrap hel h32)
  · exact fun h64 h32 htrap => hraised (.sysTrapEL3 htrap (.inl ⟨hel, h64, h32⟩))
  · exact fun h64 h32 htrap hhalt => hraised (.halt hhalt (.inl ⟨hel, h64, h32, htrap⟩))
  · exact fun h64 h32 htrap hhalt => hcompletes (.inl ⟨hel, h64, h32, htrap, hhalt⟩)
  · exact fun htrap => hraised (.sysTrapEL3 htrap (.inr hel))
  · exact fun htrap hhalt => hraised (.halt hhalt (.inr (.inl ⟨hel, htrap⟩)))
  · exact fun htrap hhalt => hcompletes (.inr (.inl ⟨hel, htrap, hhalt⟩))
  · exact fun hhalt => hraised (.halt hhalt (.inr (.inr hel)))
  · exact fun hhalt => hcompletes (.inr (.inr ⟨hel, hhalt⟩))

/-- Settles O10, by the one way to raise the trap. -/
theorem sysTrapEL2RaisedExactly : Obligations.SysTrapEL2RaisedExactly := by
  refine fun i s => ⟨fun ec h => ?_, fun hadm himpl hel htrap => exec_of_raisedBy hadm himpl (.sysTrapEL2 hel htrap)⟩
  cases raisedBy_of_exec_fault h (by simp) with
  | sysTrapEL2 hel htrap => exact ⟨hel, htrap, rfl⟩

/-- Settles O11, by the one way to raise the trap, whose condition excludes that of R71. -/
theorem hypTrapRaisedExactly : Obligations.HypTrapRaisedExactly := by
  refine fun i s => ⟨fun ec h => ?_, fun hadm himpl hel htrap => exec_of_raisedBy hadm himpl (.hypTrap hel htrap)⟩
  cases raisedBy_of_exec_fault h (by simp) with
  | hypTrap hel htrap => exact ⟨hel, not_EL2Trap64_of_EL2Trap32 htrap, htrap, rfl⟩

/-- Settles O12, by the one way to raise the trap. -/
theorem sysTrapEL3RaisedExactly : Obligations.SysTrapEL3RaisedExactly := by
  refine fun i s => ⟨fun ec h => ?_, fun hadm himpl htrap hel => exec_of_raisedBy hadm himpl (.sysTrapEL3 htrap hel)⟩
  cases raisedBy_of_exec_fault h (by simp) with
  | sysTrapEL3 htrap hel => exact ⟨htrap, rfl, hel⟩

/-- Settles O13, by the one way to raise the halt. -/
theorem softwareAccessHaltRaisedExactly : Obligations.SoftwareAccessHaltRaisedExactly := by
  refine fun i s => ⟨fun h => ?_, fun hadm himpl hhalt hel => exec_of_raisedBy hadm himpl (.halt hhalt hel)⟩
  cases raisedBy_of_exec_fault h (by simp) with
  | halt hhalt hel => exact ⟨hhalt, hel⟩

/-- Settles O8: the check raises `Undefined`, and an unimplemented watchpoint adds no other outcome to it. -/
theorem accessAtEL0IsUndefined : Obligations.AccessAtEL0IsUndefined := by
  intro i s hadm hel
  cases himpl : s.implemented i.crm with
  | true => exact exec_of_raisedBy hadm himpl (.undefined hel)
  | false => exact or_self_iff.1 (exec_unimplemented_of_raises hadm himpl (accessCheck_el0 _ hel))

/-- Settles O15: how an admitted access ends is the gate's to say, which does not know a read from a write. -/
theorem readAndWriteHaveTheSameRights : Obligations.ReadAndWriteHaveTheSameRights := by
  intro i j s hi hj hcrm
  refine ⟨?_, fun f => ?_⟩
  · rw [exec_next_iff_gate hi, exec_next_iff_gate hj, hcrm]
  · rw [exec_fault_iff_gate hi, exec_fault_iff_gate hj, hcrm]

/-- Settles O27: under the new inputs the access proceeds, and does to the registers of `s` what any access does. -/
theorem reexecutionAfterAnOutcome : Obligations.ReexecutionAfterAnOutcome := by
  intro i s inp himpl hadm hperm
  obtain ⟨u, hu⟩ : ∃ u, exec i (s.withInputs inp) = .next u := exec_of_permitted hadm himpl hperm
  obtain ⟨hinp, hwvr, hpc⟩ := exec_keeps_processor hu
  obtain ⟨hcfg, htext⟩ := exec_keeps_cfg_text hu
  refine ⟨u, hu, fun n hn => ?_, fun t ht => ?_, fun hread => ?_, fun hread t v ht hheld => ?_,
    fun hread t ht _ hstorage => ?_, fun hwrite => ?_, fun hwrite t ht => ?_, hinp, hwvr, hcfg, hpc, htext,
    fun w hf hd => ?_⟩
  · obtain hkept | ⟨-, hcrm, -⟩ := exec_wcrAt hu n
    · exact hkept
    · exact absurd hcrm.symm hn
  · obtain hkept | ⟨-, hrt⟩ := exec_readX hu t
    · exact hkept
    · exact absurd hrt.symm ht
  · obtain hkept | ⟨hwrite, -⟩ := exec_wcrAt hu i.crm
    · exact hkept
    · cases hread.symm.trans hwrite
  · rw [exec_read_readX hread ht.symm hu, readPath_held _ (s.withInputs inp) _ v hheld]
    rfl
  · rw [exec_read_readX hread ht.symm hu]
    exact res0BitsReadAsZero .aarch32 (s.withInputs inp) i.crm hstorage
  · obtain ⟨r, -, rfl⟩ := exec_write_next hwrite hu
    rfl
  · obtain ⟨r, hr, rfl⟩ := exec_write_next hwrite hu
    obtain rfl : t = r := Fin.ext (ht.trans hr)
    rw [wcrAt_writePath, if_pos rfl]
    rfl
  · have hpc' : u.pc = s.pc := hpc
    rw [run_setInputs_execute hf hd hu, ← hpc']
    rfl

/-! ### Matching -/

/-- Settles O31, value by value. -/
theorem typeMatchTable : Obligations.TypeMatchTable := by
  intro lsc
  refine ⟨Iff.rfl, Iff.rfl, ?_, ?_, ?_, ?_⟩ <;>
    · rintro rfl
      decide

/-- Settles O33: nothing is refused, so the address decides, and its sums do not wrap. -/
theorem unmaskedMatchIsByteSelect : Obligations.UnmaskedMatchIsByteSelect := by
  intro p c w a harmed hparams hmask hw hbas
  have hm : effectiveMask p.reservedMask (maskOf c) = some 0 := by rw [hmask]; rfl
  have hrefusals : addrRefusals 0 (basOf c) w = [] :=
    (addrRefusals_eq_nil_iff (Nat.zero_le 31) _ w).2 ⟨hw, hbas, .inl rfl⟩
  rw [matchVerdict_eq_conjunction w ((armed_iff_enabledFor c a).1 harmed) hm, ← addrMatch_unmasked_iff hw]
  exact conjunction_of_addrMatch hrefusals hparams

/-- Settles O35: with BAS and the masked bits as D9 asks the address decides; otherwise their refusal is among the
reasons. -/
theorem maskedMatchIsAlignedBlock : Obligations.MaskedMatchIsAlignedBlock := by
  intro p c w a harmed h3
  have h31 : (maskOf c).toNat ≤ 31 := Nat.le_of_lt_succ (maskOf c).isLt
  have hm : effectiveMask p.reservedMask (maskOf c) = some (maskOf c).toNat :=
    effectiveMask_defined _ (fun h => by simp [h] at h3) (fun h => by simp [h] at h3)
  rw [matchVerdict_eq_conjunction w ((armed_iff_enabledFor c a).1 harmed) hm]
  refine ⟨fun hparams hbas hblock => ?_, fun h => ?_⟩
  · have haligned : w.toNat % 4 = 0 :=
      Nat.mod_eq_zero_of_dvd ((pow_dvd_pow 2 (by omega : 2 ≤ (maskOf c).toNat)).trans (Nat.dvd_of_mod_eq_zero hblock))
    have hrefusals : addrRefusals (maskOf c).toNat (basOf c) w = [] :=
      (addrRefusals_eq_nil_iff h31 _ w).2 ⟨haligned, by rw [hbas]; decide, .inr ⟨hbas, hblock⟩⟩
    rw [← addrMatch_masked_iff h3 h31 (basOf c)]
    exact conjunction_of_addrMatch hrefusals hparams
  · have hmem := maskWithBAS_mem_addrRefusals h3 h31 h
    have hne := List.append_ne_nil_of_left_ne_nil (List.ne_nil_of_mem hmem) (paramRefusals p c a.context)
    exact ⟨_, (conjunction_refused_iff _ _ _ _ _ _).2 ⟨rfl, hne⟩, List.mem_append_left _ hmem⟩

/-- Settles O37: the conjunction is refused when the address match or a parameter is, whose refusals are the reasons of
R84. -/
theorem refusedExactlyWhen : Obligations.RefusedExactlyWhen := by
  intro p c w a harmed h1 h2
  have h31 : (maskOf c).toNat ≤ 31 := Nat.le_of_lt_succ (maskOf c).isLt
  have hm := effectiveMask_defined p.reservedMask h1 h2
  have hdefined : (maskOf c).toNat = 0 ↔ ¬ 3 ≤ (maskOf c).toNat := by
    have := effectiveMask_range hm
    omega
  rw [matchVerdict_eq_conjunction w ((armed_iff_enabledFor c a).1 harmed) hm, conjunction_refused_iff_refusals,
    addrRefusals_eq_nil_iff h31, paramRefusals_eq_nil_iff, ne_eq (linkVerdict _ _ _), linkVerdict_eq_reserved_iff,
    stateVerdict, hdefined, ← Bool.not_eq_true]
  simp only [ne_eq, not_and_or, not_or, not_not, or_assoc]

/-- Settles O38: a matched conjunction has no refusal, both parameters in its favour, and the address match of the mask
in force. -/
theorem matchNeedsEveryCondition : Obligations.MatchNeedsEveryCondition := by
  intro p c w a h
  obtain ⟨hen, m, hm, hconj⟩ := matchVerdict_matched h
  obtain ⟨hrefusals, hs, hl, haddr⟩ := (conjunction_matched_iff p m c w a).1 hconj
  have hrange := effectiveMask_range hm
  have h31 : m ≤ 31 := by omega
  obtain ⟨hw, hbas, hmasked⟩ := (addrRefusals_eq_nil_iff h31 _ w).1 hrefusals
  refine ⟨(armed_iff_enabledFor c a).2 hen, (paramsHold_iff p c _).2 ⟨hs, hl⟩, hbas, hw, m, hm, hrange, haddr, ?_,
    fun h3 => ?_⟩
  · rintro rfl
    exact (addrMatch_unmasked_iff hw _ _).1 haddr
  · obtain rfl | ⟨hFF, hblock⟩ := hmasked
    · omega
    · exact ⟨hFF, hblock, (addrMatch_masked_iff h3 h31 _ w _).1 haddr⟩

/-- Settles O39: with WT = 0 the link condition holds whatever LBN and the parameter are, and the other fields are the
same. -/
theorem unlinkedWatchpointIgnoresLink : Obligations.UnlinkedWatchpointIgnoresLink := by
  intro p p' c w a lbn hwt hstate hreserved
  obtain ⟨-, hmask, -, hwt', -, hssc, hhmc, hbas, hlsc, hpac, he⟩ := fields_pack (r31Of c) (maskOf c) (r23Of c) (wtOf c)
    lbn (sscOf c) (hmcOf c) (basOf c) (lscOf c) (pacOf c) (eOf c)
  refine matchVerdict_congr w he.symm hlsc.symm hbas.symm (by rw [hmask, hreserved]) ?_ ?_
  · rw [stateVerdict, stateVerdict, hssc, hhmc, hpac, hstate]
  · rw [(linkVerdict_eq_yes_iff p c _).2 (.inl hwt), (linkVerdict_eq_yes_iff p' _ _).2 (.inl (hwt'.trans hwt))]

/-- Settles O41: of the conditions of a match, the access's bytes are in one alone, and it grows with them. -/
theorem widerAccessStillMatches : Obligations.WiderAccessStillMatches := by
  intro p c w a b hkind hcontext hsub h
  obtain ⟨hen, m, hm, hconj⟩ := matchVerdict_matched h
  obtain ⟨hrefusals, hs, hl, haddr⟩ := (conjunction_matched_iff p m c w a).1 hconj
  have hen' : enabledFor c b := by rwa [enabledFor, hkind] at hen
  rw [hcontext] at hs hl
  rw [matchVerdict_eq_conjunction w hen' hm]
  exact (conjunction_matched_iff p m c w b).2 ⟨hrefusals, hs, hl, addrMatch_mono hsub haddr⟩

end Sys2Proof.Proofs

/-! The family of spec/70_reset_and_hazards.md: Cold reset (R90), the boot duty (R92) and well-formed values (R93). -/

namespace Sys2Proof.Machine

/-- The check of R93 as a condition: the watchpoint is disabled, or none of the three fields is reserved. -/
theorem wellFormedWcr_iff (v : Word) : Safety.wellFormedWcr v = true ↔
    eOf v = 0#1 ∨ (maskOf v ≠ 1#5 ∧ maskOf v ≠ 2#5 ∧ basValid (basOf v) = true ∧ lscOf v ≠ 0b00#2) := by
  simp [Safety.wellFormedWcr, ← BitVec.toNat_inj, and_assoc]

/-- Only a value that is enabled for the access is refused: the tests of R78 before the conjunction answer false. -/
theorem enabledFor_of_refused {p : MatchParams} {c w : Word} {a : Access} {rs : List MatchRefusal}
    (h : matchVerdict p c w a = .refused rs) : enabledFor c a := by
  by_contra hen
  cases (matchVerdict_not_enabled hen).symm.trans h

/-- E is stored as written (R64). -/
theorem eOf_storeValue (cfg : Config) (v : Word) : eOf (storeValue cfg v) = eOf v := by
  obtain ⟨-, -, -, -, -, -, -, -, he⟩ := rw_fields v
  unfold storeValue
  split
  · rfl
  · exact he

/-- A synchronisation point, then a data access: no other event comes between. -/
theorem run_synchronise_dataAccess (s : State) (n : Fin 16) (a : Access) :
    Sys2Proof.core.run 2 (s.withSchedule [.synchronise n, .dataAccess a]) =
      .next (((s.synchronise n).withSchedule []).present a) := by
  have hsynchronise : step (s.withSchedule [.synchronise n, .dataAccess a]) =
      .next ((s.synchronise n).withSchedule [.dataAccess a]) := rfl
  exact core_run_two hsynchronise rfl

end Sys2Proof.Machine

namespace Sys2Proof.Proofs

open Sys2Proof.Machine Sys2Proof.Claims

/-- Settles O42: a refused value is enabled, and each reason for a refusal is excluded, by R93 or by a premise. -/
theorem wellFormedValuesAreNotRefused : Obligations.WellFormedValuesAreNotRefused := by
  intro p c w a rs hwf haligned hmask hstate hlink h
  have hen := enabledFor_of_refused h
  obtain hdisabled | ⟨hne1, hne2, hbasValid, -⟩ := (wellFormedWcr_iff c).1 hwf
  · exact hen.1 hdisabled
  · obtain hunaligned | hbas | ⟨hmasked, hblock⟩ | hreserved | ⟨hlinked, hreserved⟩ :=
      (refusedExactlyWhen p c w a ((armed_iff_enabledFor c a).2 hen) hne1 hne2).1 ⟨rs, h⟩
    · exact hunaligned haligned
    · cases hbasValid.symm.trans hbas
    · obtain hunmasked | ⟨hFF, hzero⟩ := hmask
      · omega
      · exact hblock.elim (· hFF) (· hzero)
    · exact hstate hreserved
    · obtain hunlinked | hdefined := hlink
      · cases hlinked.symm.trans hunlinked
      · exact hdefined hreserved

/-- Settles O43: the step is `State.coldReset` on the rest of the schedule, which replaces the implemented registers
alone. -/
theorem coldResetLeavesNothing : Obligations.ColdResetLeavesNothing := by
  intro s rest h
  refine ⟨_, step_of_event h, fun n hi => ?_, fun n hi => ?_, rfl, rfl, rfl, rfl, rfl, rfl, rfl, rfl, rfl, rfl⟩
  · simp [hi]
  · simp [hi]

/-- Settles O55: the write holds a value with E = 0, the synchronisation point leaves no other, and such a value is
enabled for no access. -/
theorem bootDutyQuietsAWatchpoint : Obligations.BootDutyQuietsAWatchpoint := by
  intro i s t hwrite hadm hperm himpl hrt he
  refine ⟨_, exec_write hwrite hadm hperm himpl hrt, fun a => ?_⟩
  have hsynchronised : (((s.writePath .aarch32 i.crm (s.readX t)).synchronise i.crm).withSchedule []).wcrAt i.crm =
      ⟨.held (storeValue s.cfg (s.readX t)), []⟩ := by simp
  obtain ⟨hverdict, hevents⟩ := noMatch_noEvent (a := a) hsynchronised
    fun hen => hen.1 ((eOf_storeValue _ _).trans he)
  exact ⟨_, _, run_synchronise_dataAccess _ _ a, rfl, (reportOn_verdict _ a _).trans hverdict, hevents⟩

end Sys2Proof.Proofs
